-- ==== Sys2Proof/Word.lean ====
section
/-!
DEFINITION. Bytes, lines and numbers: the plain data of XMCAM-LSF (00_scope.md rules R4, R5; 10_state.md rule R22).
-/

namespace Sys2Proof

/-- A byte: 8 bits (R4). -/
abbrev Byte := BitVec 8

/-- A byte string (R4): `s[i]` is the byte at index i, `++` is concatenation, `[]` is the empty string. -/
abbrev Line := List Byte

/-- A numeric status register: a natural number of NUMW = 32 bits (R22). -/
abbrev Num := BitVec 32

/-- The byte string of an ASCII text, one byte per character. -/
def ascii (s : String) : Line := s.toList.map fun c => BitVec.ofNat 8 c.toNat

end Sys2Proof
end

