-- ==== Sys2Proof/Syntax.lean ====
section
/-!
DEFINITION. The instructions: one constructor of `Instr` per row of spec/opcode_table.json, in the table's order, and the
data types their operands have (30_encoding.md rules R60 to R63, R67, R73 to R75; 60_exceptions.md rule R230).
-/

namespace Sys2Proof

/-- The protocol variant, `CFG.VARIANT` (R11): all four values of the 2-bit field are legal. -/
inductive Variant where
  | grbl09
  | grbl11
  | trinus
  | marlin
deriving DecidableEq, Repr

/-- The terminator, `CFG.TERM` (R12). -/
inductive Term where
  | lf
  | crlf
deriving DecidableEq, Repr

/-- A result `ReadLine()` returns for a line (R104, R107): a text, or the placeholder token `BAD`, which is not a text. -/
inductive Received where
  | line (t : Line)
  | bad
deriving DecidableEq, Repr

/-- A triple of coordinate texts, kept as they stood in the line (R21, R77). -/
structure Triple where
  x : Line
  y : Line
  z : Line
deriving DecidableEq, Repr

/-- A status report (R21, R172). The optional items are `none` when absent from the line. -/
structure StatusReport where
  state  : Line
  sub    : Option Num
  cmdbuf : Num
  rxbuf  : Num
  mpos   : Option Triple
  wpos   : Option Triple
  ln     : Option Num
  feed   : Option Line
deriving DecidableEq, Repr

/-- The predicate selector of WAITST with its argument (R61). -/
inductive Pred where
  | gate09
  | gate11 (n : Nat)
  | idle
  | custom
deriving DecidableEq, Repr

/-- The reason of a REJECTED completion (R62). -/
inductive Reason where
  | badOp
  | badPhase
  | badVariant
  | badArg
deriving DecidableEq, Repr

/-- The fatal errors (R230). -/
inductive ErrCode where
  | grblBadAck
  | grblStatusParse
  | trinusDeviceError
  | rxOverrun
deriving DecidableEq, Repr

/-- What an OK completion carries (R62): nothing, a text (the acknowledgment, the line read, the notice) or a report. -/
inductive OkPayload where
  | nothing
  | text (t : Line)
  | report (r : StatusReport)
deriving DecidableEq, Repr

/-- The instructions. -/
inductive Instr where
  -- HOSTOP: the host operations (R60) and the unassigned codes (R82)
  | setvar (v : Variant)
  | openOp (initial : Bool)
  | close
  | queue (l : Line)
  | feed (l : Line)
  | status
  | waitst (p : Pred)
  | npop
  | topen
  | rdline
  | wrline (t : Line)
  | unassigned (code : Byte)
  -- PSEUDO: abbreviations of host operations (R63)
  | waitidle
  | sendjob (ls : List Line)
  | query
  -- TXLINE: the kinds of transmitted line (R67)
  | txRaw (payload : Line)
  | txChecksummed (t : Line)
  -- RXLINE: the classes of received line (R73, R74, R75), each with the raw line as it stood on the wire
  | gNotice (raw : Line)
  | gStatus (raw : Line)
  | gOk
  | gOther (raw : Line)
  | tCkerr
  | tError (raw : Line)
  | tInfo (raw : Line)
  | tOk
  | tOther (raw : Line)
  | mInfo (raw : Line)
  | mOk
  | mOther (raw : Line)
  -- COMPLETION: the completion codes with their payload (R62)
  | cplOk (p : OkPayload)
  | cplSuppressed
  | cplSkipped
  | cplNone
  | cplBadline
  | cplEmpty
  | cplCancelled
  | cplRejected (r : Reason)
  | cplFatal (e : ErrCode) (text : Received)
  -- ERRCODE: the fatal errors with the text they record (R230)
  | errGrblBadAck (text : Received)
  | errGrblStatusParse (text : Received)
  | errTrinusDeviceError (text : Received)
  | errRxOverrun
deriving DecidableEq, Repr

end Sys2Proof
end

