-- ==== Sys2Proof/Config.lean ====
section
/-!
DEFINITION. What an implementation of the block fixes (00_scope.md rule R3; 92_eei_decisions.md section 9): the build
parameters as plain data, and the one open parameter that is a function, as an opaque constant.
-/

namespace Sys2Proof

/-- `P_M117_SRC` (R129): which text a Trinus or Marlin display command transmits. -/
inductive M117Src where
  | stripped
  | original
deriving DecidableEq, Repr

/-- The build parameters of R3. `none` as a capacity means unbounded. No step changes them (log 2). -/
structure Params where
  /-- `RX_LINE_MAX`, the capacity of RXBUF in bytes. -/
  rxLineMax  : Option Nat
  /-- `CMD_LINE_MAX`, the longest command line in bytes. -/
  cmdLineMax : Option Nat
  /-- `NQ_MAX`, the capacity of NOTICEQ in lines. -/
  nqMax      : Option Nat
  /-- The members of `BLOCKLIST` beside `"G21"`, which R128 makes a member of every block-list. -/
  blockMore  : List Line
  /-- `PGM_END`, the Grbl program-end lines (R186). -/
  pgmEnd     : List Line
  /-- `P_M117_SRC` (R129). -/
  m117       : M117Src
deriving DecidableEq, Repr

/-- `BLOCKLIST` (R128): `"G21"` is a member whatever the rest of the set is. -/
def Params.blocklist (p : Params) : List Line := ascii "G21" :: p.blockMore

/-- The defaults of R3, with the values 95_test_vectors.md suggests for the open sets: DESIGN CHOICE, log 2. They stand only
in `State.reset`; no rule of the model uses them. -/
def Params.suggested : Params where
  rxLineMax  := none
  cmdLineMax := none
  nqMax      := none
  blockMore  := []
  pgmEnd     := [ascii "M2", ascii "M30"]
  m117       := .stripped

/-- `P_CUSTOM` (R180): any total function from status reports to booleans. It has no body: every claim holds for every such
function (log 3). -/
opaque Config.pCustom : StatusReport → Bool

end Sys2Proof
end

