-- ==== Sys2Proof/Machine/Text.lean ====
section
/-!
DEFINITION. Byte-string functions of the block: terminators and framing (10_state.md R12, 40_transport.md R103), UTF-8
validity (30_encoding.md R66), decimal numbers (R69, R70), prefixes and character classes (R4, R76, R126).
-/

namespace Sys2Proof

/-- The bytes of a terminator (R12, R65): LF is `0A`, CRLF is `0D 0A`. -/
def Term.bytes : Term → Line
  | .lf   => [0x0A]
  | .crlf => [0x0D, 0x0A]

/-- The bit of `CFG.TERM` (R12): 0 is LF, 1 is CRLF. -/
def Term.bit : Term → BitVec 1
  | .lf   => 0
  | .crlf => 1

/-- The number of a variant (R11). -/
def Variant.bits : Variant → BitVec 2
  | .grbl09 => 0
  | .grbl11 => 1
  | .trinus => 2
  | .marlin => 3

/-- The variant of a number (R11, R86): all four values are assigned. -/
def Variant.ofBits (b : BitVec 2) : Variant :=
  match b.toNat with
  | 0 => .grbl09
  | 1 => .grbl11
  | 2 => .trinus
  | _ => .marlin

/-- The Grbl variants. -/
def Variant.isGrbl : Variant → Bool
  | .grbl09 | .grbl11 => true
  | .trinus | .marlin => false

/-- The terminator follows the variant (R12, R65): CRLF for the Grbl variants, LF for TRINUS and MARLIN. -/
def Variant.term : Variant → Term
  | .grbl09 | .grbl11 => .crlf
  | .trinus | .marlin => .lf

/-- `prefix(p, s)` (R4). -/
def isPrefix (p s : Line) : Bool := p.isPrefixOf s

/-- `split(b)` (R103): the bytes before the first occurrence of the terminator, and the bytes after it; `none` when the
terminator does not occur. -/
def splitLine (term : Line) : Line → Option (Line × Line)
  | [] => none
  | b :: bs =>
    if isPrefix term (b :: bs) then some ([], (b :: bs).drop term.length)
    else (splitLine term bs).map fun r => (b :: r.1, r.2)

/-- `hasLine(b)` (R103): the terminator occurs in `b`. -/
def hasLine (term b : Line) : Bool := (splitLine term b).isSome

/-- A range of byte values a following byte of a UTF-8 sequence must lie in. -/
abbrev ByteRange := Nat × Nat

/-- The ordinary continuation bytes `80..BF` (R66). -/
def contRange : ByteRange := (0x80, 0xBF)

/-- The table of R66: what must follow a first byte; `none` for a byte that cannot stand first. -/
def utf8Follow (b : Byte) : Option (List ByteRange) :=
  let n := b.toNat
  if n ≤ 0x7F then some []
  else if n ≤ 0xC1 then none
  else if n ≤ 0xDF then some [contRange]
  else if n = 0xE0 then some [(0xA0, 0xBF), contRange]
  else if n = 0xED then some [(0x80, 0x9F), contRange]
  else if n ≤ 0xEF then some [contRange, contRange]
  else if n = 0xF0 then some [(0x90, 0xBF), contRange, contRange]
  else if n ≤ 0xF3 then some [contRange, contRange, contRange]
  else if n = 0xF4 then some [(0x80, 0x8F), contRange, contRange]
  else none

/-- The UTF-8 scan: `need` is what the sequence under way still asks for. -/
def utf8Scan : List ByteRange → Line → Bool
  | [], [] => true
  | _ :: _, [] => false
  | r :: need, b :: bs => decide (r.1 ≤ b.toNat) && decide (b.toNat ≤ r.2) && utf8Scan need bs
  | [], b :: bs =>
    match utf8Follow b with
    | none => false
    | some need => utf8Scan need bs

/-- A byte string is text when it is a concatenation of well-formed UTF-8 sequences (R66). The empty string is text. -/
def isText (s : Line) : Bool := utf8Scan [] s

/-- The result of decoding a raw line (R104, R107): the text, or the placeholder. -/
def Received.ofRaw (raw : Line) : Received := if isText raw then .line raw else .bad

/-- A decimal digit `0..9`. -/
def isDigit (b : Byte) : Bool := decide (0x30 ≤ b.toNat) && decide (b.toNat ≤ 0x39)

/-- A `LETTER` (R76). -/
def isLetter (b : Byte) : Bool :=
  (decide (0x41 ≤ b.toNat) && decide (b.toNat ≤ 0x5A)) || (decide (0x61 ≤ b.toNat) && decide (b.toNat ≤ 0x7A))

/-- Printable ASCII, `20..7E` (R61, R146). -/
def isPrintable (b : Byte) : Bool := decide (0x20 ≤ b.toNat) && decide (b.toNat ≤ 0x7E)

/-- The whitespace set `WS` (R126): `09..0D` and `20`. -/
def isWS (b : Byte) : Bool := (decide (0x09 ≤ b.toNat) && decide (b.toNat ≤ 0x0D)) || b == 0x20

/-- The ASCII digit of a number below ten. -/
def digit (n : Nat) : Byte := BitVec.ofNat 8 (0x30 + n % 10)

/-- The digits of `n` before `acc`, most significant first; `fuel` bounds how many. -/
def decGo : Nat → Nat → Line → Line
  | 0, _, acc => acc
  | fuel + 1, n, acc => if n < 10 then digit n :: acc else decGo fuel (n / 10) (digit n :: acc)

/-- `dec(n)` (R69): the shortest decimal rendering, no sign, no leading zeros. -/
def dec (n : Nat) : Line := decGo (n + 1) n []

/-- `num(s)` (R70): the value of a string of digits, most significant first. -/
def num (s : Line) : Nat := s.foldl (fun acc b => 10 * acc + (b.toNat - 0x30)) 0

/-- A fixed ASCII string of the block (R88). -/
def okText : Line := ascii "ok"

/-- The status query `?` (R81, R88). -/
def queryLine : Line := ascii "?"

end Sys2Proof
end

