-- ==== Sys2Proof/Machine/Checksum.lean ====
section
/-!
DEFINITION. The checksum unit, the pre-send transform and the skip filter (41_checksum_transform.md rules R120 to R134):
pure functions of byte strings and of the build parameters.
-/

namespace Sys2Proof

/-- The exclusive OR of all bytes of a string, from an 8-bit accumulator of 0. -/
def xorAll (s : Line) : Byte := s.foldl (fun c b => c ^^^ b) 0

/-- `CK(s)` (R120): the XOR of the bytes of `s` and of one trailing space. -/
def CK (s : Line) : Byte := xorAll s ^^^ 0x20

/-- `CKAPPEND(T)` (R122): `T`, a space, a star and the checksum in decimal. -/
def ckAppend (t : Line) : Line := t ++ [0x20, 0x2A] ++ dec (CK t).toNat

/-- The string cut at its LAST star: what stands before it and what after it. -/
def splitLastStar : Line → Option (Line × Line)
  | [] => none
  | b :: bs =>
    match splitLastStar bs with
    | some r => some (b :: r.1, r.2)
    | none => if b = 0x2A then some ([], bs) else none

/-- The digits of a checksum (R123): 1 to 3 ASCII digits, no leading zero unless the only digit. -/
def isCkDigits (d : Line) : Bool :=
  decide (1 ≤ d.length) && decide (d.length ≤ 3) && d.all isDigit
    && !(decide (1 < d.length) && d.head? == some 0x30)

/-- `CKVERIFY(u)` (R123). No operation of the block calls it. -/
def ckVerify (u : Line) : Bool :=
  match splitLastStar u with
  | none => false
  | some (before, d) =>
    isCkDigits d && (before.getLast? == some 0x20) && (num d == (xorAll before).toNat)

/-- `stripComment(L)` (R125): everything from the first `;` on is removed. -/
def stripComment (l : Line) : Line := l.takeWhile fun b => b != 0x3B

/-- `stripTrailingWS(T)` (R126). -/
def stripTrailingWS (t : Line) : Line := t.rdropWhile isWS

/-- The stripped text of a command line, on which the transform's tests are made (R124). -/
def strip (l : Line) : Line := stripTrailingWS (stripComment l)

/-- The display-command prefix `M117` (R129). -/
def m117Prefix : Line := ascii "M117"

/-- The result of the transform (R124). -/
inductive Shortened where
  | suppress
  | send (u : Line)
deriving DecidableEq, Repr

/-- `display(L, T)` (R129). -/
def display (p : Params) (l t : Line) : Line :=
  match p.m117 with
  | .stripped => t
  | .original => l

/-- `shorten(L)` (R124): the four tests in the order of the rule. -/
def shorten (p : Params) (l : Line) : Shortened :=
  let t := strip l
  if p.blocklist.contains t then .suppress
  else if isPrefix m117Prefix t then .send (display p l t)
  else if t.contains 0x2A then .send t
  else .send (ckAppend t)

/-- `skip(L)` (R133): blank lines and lines that start with `%` or `(`. -/
def skip (l : Line) : Bool :=
  match l with
  | [] => true
  | b :: _ => l.all isWS || b == 0x25 || b == 0x28

end Sys2Proof
end

