-- ==== Sys2Proof/Machine/Classes.lean ====
section
/-!
DEFINITION. The classes of received lines (30_encoding.md rules R72 to R75). A class holds what its row's effect needs.
-/

namespace Sys2Proof

/-- First byte `a`, last byte `z`, length at least 2. -/
def delimited (a z : Byte) (t : Line) : Bool :=
  decide (2 ≤ t.length) && (t.head? == some a) && (t.getLast? == some z)

/-- `notice(t)` (R72): bracket-delimited. -/
def isNotice (t : Line) : Bool := delimited 0x5B 0x5D t

/-- `statusShaped(t)` (R72): angle-bracket-delimited. -/
def isStatusShaped (t : Line) : Bool := delimited 0x3C 0x3E t

/-- The Grbl classes (R73), rows 1 to 5; `BAD` is in `other` with the texts of row 5, as in the opcode table. -/
inductive GClass where
  | notice (t : Line)
  | status (t : Line)
  | ok
  | other (r : Received)
deriving DecidableEq, Repr

/-- The Trinus classes (R74). -/
inductive TClass where
  | ckerr
  | error (t : Line)
  | info (t : Line)
  | ok
  | other (r : Received)
deriving DecidableEq, Repr

/-- The Marlin classes (R75). -/
inductive MClass where
  | info (t : Line)
  | ok
  | other (r : Received)
deriving DecidableEq, Repr

/-- The exact recoverable text of R74. -/
def ckerrText : Line := ascii "[ERROR] invalid checksum"

/-- The prefix of a Trinus device error (R74). -/
def errorPrefix : Line := ascii "[ERROR]"

/-- The prefix of a Trinus echo (R74). -/
def echoPrefix : Line := ascii "[ECHO]"

/-- The prefix of a Trinus value (R74). -/
def valuePrefix : Line := ascii "[VALUE]"

/-- The prefix of a Marlin informational line (R75). -/
def marlinEchoPrefix : Line := ascii "echo:"

/-- The class of a received line on the Grbl variants, tested top to bottom (R73, R243 (1)). -/
def grblClass : Received → GClass
  | .bad => .other .bad
  | .line t =>
    if isNotice t then .notice t
    else if isStatusShaped t then .status t
    else if t = okText then .ok
    else .other (.line t)

/-- The class of a received line on TRINUS, tested top to bottom (R74, R243 (1)). -/
def trinusClass : Received → TClass
  | .bad => .other .bad
  | .line t =>
    if t = ckerrText then .ckerr
    else if isPrefix errorPrefix t then .error t
    else if isPrefix echoPrefix t || isPrefix valuePrefix t then .info t
    else if t = okText then .ok
    else .other (.line t)

/-- The class of a received line on MARLIN, tested top to bottom (R75). -/
def marlinClass : Received → MClass
  | .bad => .other .bad
  | .line t =>
    if isPrefix marlinEchoPrefix t then .info t
    else if t = okText then .ok
    else .other (.line t)

end Sys2Proof
end

