-- ==== Sys2Proof/WellFormed.lean ====
section
/-!
DEFINITION. Well-formed instructions, relative to the variant (30_encoding.md R87: `CFG.VARIANT` is the one mode that changes
decoding): a code that is unassigned (R82), a transmitted payload without its terminator (R64, R67), a received raw line whose
class it is (R72 to R75). The other constructors have operands of types that admit only legal values (R61, R86),
but for the text of a fatal error, which is not held against its code (DESIGN CHOICE, log 25).
-/

namespace Sys2Proof

/-- An unassigned op code (R60, R82): `00` and `0C..FF`. -/
def isUnassigned (c : Byte) : Bool := c.toNat == 0 || decide (0x0C ≤ c.toNat)

/-- The line holds no terminator of the variant (R64, R71). -/
def noTerm (v : Variant) (l : Line) : Bool := !hasLine v.term.bytes l

/-- The text a CHECKSUMMED line is made of (R67): stripped (R125, R126), with no star (R130) and no `M117` prefix (R129). -/
def isChecksummable (t : Line) : Bool :=
  strip t == t && !t.contains 0x2A && !isPrefix m117Prefix t

/-- The raw line is of the Grbl class the condition names (R73). -/
def isGrblRaw (v : Variant) (raw : Line) (p : GClass → Bool) : Bool :=
  v.isGrbl && noTerm v raw && p (grblClass (.ofRaw raw))

/-- The raw line is of the Trinus class the condition names (R74). -/
def isTrinusRaw (v : Variant) (raw : Line) (p : TClass → Bool) : Bool :=
  v == .trinus && noTerm v raw && p (trinusClass (.ofRaw raw))

/-- The raw line is of the Marlin class the condition names (R75). -/
def isMarlinRaw (v : Variant) (raw : Line) (p : MClass → Bool) : Bool :=
  v == .marlin && noTerm v raw && p (marlinClass (.ofRaw raw))

/-- The class is row 2 of R73. -/
def GClass.isNotice : GClass → Bool | .notice _ => true | _ => false
/-- The class is row 3 of R73. -/
def GClass.isStatus : GClass → Bool | .status _ => true | _ => false
/-- The class is row 1 or 5 of R73. -/
def GClass.isOther : GClass → Bool | .other _ => true | _ => false
/-- The class is row 2 of R74. -/
def TClass.isError : TClass → Bool | .error _ => true | _ => false
/-- The class is row 3 of R74. -/
def TClass.isInfo : TClass → Bool | .info _ => true | _ => false
/-- The class is row 5 of R74. -/
def TClass.isOther : TClass → Bool | .other _ => true | _ => false
/-- The class is row 1 of R75. -/
def MClass.isInfo : MClass → Bool | .info _ => true | _ => false
/-- The class is row 3 of R75. -/
def MClass.isOther : MClass → Bool | .other _ => true | _ => false

/-- Well-formedness of an instruction under a variant. -/
def Instr.wf (v : Variant) : Instr → Bool
  | .setvar _ => true
  | .openOp _ => true
  | .close => true
  | .queue _ => true
  | .feed _ => true
  | .status => true
  | .waitst _ => true
  | .npop => true
  | .topen => true
  | .rdline => true
  | .wrline _ => true
  | .unassigned c => isUnassigned c
  | .waitidle => true
  | .sendjob _ => true
  | .query => true
  | .txRaw p => noTerm v p
  | .txChecksummed t => !v.isGrbl && noTerm v t && isChecksummable t
  | .gNotice raw => isGrblRaw v raw GClass.isNotice
  | .gStatus raw => isGrblRaw v raw GClass.isStatus
  | .gOk => v.isGrbl
  | .gOther raw => isGrblRaw v raw GClass.isOther
  | .tCkerr => v == .trinus
  | .tError raw => isTrinusRaw v raw TClass.isError
  | .tInfo raw => isTrinusRaw v raw TClass.isInfo
  | .tOk => v == .trinus
  | .tOther raw => isTrinusRaw v raw TClass.isOther
  | .mInfo raw => isMarlinRaw v raw MClass.isInfo
  | .mOk => v == .marlin
  | .mOther raw => isMarlinRaw v raw MClass.isOther
  | .cplOk _ => true
  | .cplSuppressed => true
  | .cplSkipped => true
  | .cplNone => true
  | .cplBadline => true
  | .cplEmpty => true
  | .cplCancelled => true
  | .cplRejected _ => true
  | .cplFatal _ _ => true
  | .errGrblBadAck _ => true
  | .errGrblStatusParse _ => true
  | .errTrinusDeviceError _ => true
  | .errRxOverrun => true

end Sys2Proof
end

