-- ==== Sys2Proof/Decode.lean ====
section
/-!
DEFINITION. Decoding and encoding (30_encoding.md; 95_test_vectors.md, conventions): the host operation record (10_state.md
R27) and its byte form, the pseudo-operations, transmitted and received lines, completion and error codes. Decoding is total
and rejects by name; the encoder stands after it.
-/

namespace Sys2Proof

/-- Why a decoder rejects. -/
inductive DecodeError where
  /-- No op code byte. -/
  | noBytes
  /-- The op code needs an operand (R61) and none stands there. -/
  | missingOperand
  /-- Bytes after an operand of fixed size, or after an op code without operand. -/
  | extraOperand
  /-- A variant, flag, selector or argument that is not one of its numbers (R61). -/
  | operandRange
  /-- The operations are the expansion of no pseudo-operation (R63). -/
  | notPseudo
  /-- The bytes of a line do not end with the terminator (R64, R71). -/
  | noTerminator
  /-- Bytes stand after the first terminator. -/
  | innerTerminator
  /-- A completion code 9 to 15 (R62, R86). -/
  | unusedCompletion
  /-- An error code 0 or 5 to 15 (R86, R230). -/
  | unusedError
  /-- A payload that the completion code does not carry (R62). -/
  | payloadMismatch
deriving DecidableEq, Repr

/-! ## Host operations -/

/-- The host operation port's record (R27): an op code and its operands. An operation looks only at its own operands. -/
structure HostOp where
  code : Byte
  /-- Variant number of SETVAR (R61). -/
  v : BitVec 2
  /-- Flag `initial` of OPEN (R61). -/
  i : Bool
  /-- Predicate selector of WAITST (R61). -/
  p : BitVec 2
  /-- Argument of GATE11 (R61). -/
  n : Nat
  /-- Byte string of QUEUE, FEED and WRLINE (R61). -/
  line : Line
deriving DecidableEq, Repr

/-- A record with no operand. -/
def HostOp.bare (code : Byte) : HostOp := { code := code, v := 0, i := false, p := 0, n := 0, line := [] }

/-- The predicate of a selector and its argument (R61, R86: all four selectors are assigned). -/
def Pred.ofSelector (p : BitVec 2) (n : Nat) : Pred :=
  match p.toNat with
  | 0 => .gate09
  | 1 => .gate11 n
  | 2 => .idle
  | _ => .custom

/-- The selector of a predicate (R61). -/
def Pred.selector : Pred → BitVec 2
  | .gate09 => 0
  | .gate11 _ => 1
  | .idle => 2
  | .custom => 3

/-- The argument of a predicate (R61); 0 where it has none. -/
def Pred.arg : Pred → Nat
  | .gate11 n => n
  | _ => 0

/-- The instruction of a record (R60): every code has one, assigned or not (R82). -/
def HostOp.decode (r : HostOp) : Instr :=
  match r.code.toNat with
  | 0x01 => .setvar (.ofBits r.v)
  | 0x02 => .openOp r.i
  | 0x03 => .close
  | 0x04 => .queue r.line
  | 0x05 => .feed r.line
  | 0x06 => .status
  | 0x07 => .waitst (.ofSelector r.p r.n)
  | 0x08 => .npop
  | 0x09 => .topen
  | 0x0A => .rdline
  | 0x0B => .wrline r.line
  | _ => .unassigned r.code

/-- The operand of WAITST in byte form: the selector, and for GATE11 the argument in decimal digits (log 9). -/
def waitstOperand (sel : Byte) (rest : Line) : Except DecodeError HostOp :=
  let base := HostOp.bare 0x07
  match sel.toNat with
  | 0 => if rest.isEmpty then .ok { base with p := 0 } else .error .extraOperand
  | 1 =>
    if rest.isEmpty then .error .missingOperand
    else if rest.all isDigit then .ok { base with p := 1, n := num rest } else .error .operandRange
  | 2 => if rest.isEmpty then .ok { base with p := 2 } else .error .extraOperand
  | 3 => if rest.isEmpty then .ok { base with p := 3 } else .error .extraOperand
  | _ => .error .operandRange

/-- The record of a byte form `code : operand` (95_test_vectors.md, conventions): the bytes after the code are a line's bytes or
the number of a variant, flag or predicate selector. -/
def HostOp.ofBytes : Line → Except DecodeError HostOp
  | [] => .error .noBytes
  | c :: opd =>
    match c.toNat with
    | 0x01 =>
      match opd with
      | [] => .error .missingOperand
      | [b] => if b.toNat < 4 then .ok { HostOp.bare c with v := b.setWidth 2 } else .error .operandRange
      | _ => .error .extraOperand
    | 0x02 =>
      match opd with
      | [] => .error .missingOperand
      | [b] => if b.toNat < 2 then .ok { HostOp.bare c with i := b == 1 } else .error .operandRange
      | _ => .error .extraOperand
    | 0x07 =>
      match opd with
      | [] => .error .missingOperand
      | sel :: rest => waitstOperand sel rest
    | 0x04 | 0x05 | 0x0B => .ok { HostOp.bare c with line := opd }
    | 0x03 | 0x06 | 0x08 | 0x09 | 0x0A => if opd.isEmpty then .ok (HostOp.bare c) else .error .extraOperand
    | _ => .ok (HostOp.bare c)

/-- A pseudo-operation (R63), an abbreviation the host may write in place of host operations. -/
inductive Pseudo where
  | waitidle
  | sendjob (ls : List Line)
  | query
deriving DecidableEq, Repr

/-- The instruction of a pseudo-operation. -/
def Pseudo.decode : Pseudo → Instr
  | .waitidle => .waitidle
  | .sendjob ls => .sendjob ls
  | .query => .query

/-- What the host presents: an operation record (R27) or an abbreviation of some (R63). -/
inductive PortOp where
  | op (r : HostOp)
  | pseudo (p : Pseudo)
deriving DecidableEq, Repr

/-- The instruction of what the host presents. -/
def PortOp.decode : PortOp → Instr
  | .op r => r.decode
  | .pseudo p => p.decode

/-- The instruction of a host operation in byte form. -/
def decodeBytes (b : Line) : Except DecodeError Instr :=
  match HostOp.ofBytes b with
  | .ok r => .ok r.decode
  | .error e => .error e

/-- The lines of a list of FEED operations in byte form. -/
def feedLines : List Line → Option (List Line)
  | [] => some []
  | [] :: _ => none
  | (c :: l) :: rest => if c = 0x05 then (feedLines rest).map (l :: ·) else none

/-- A pseudo-operation from its expansion (R63): `WAITST IDLE`, `STATUS`, or a list of FEEDs. -/
def decodePseudo (ops : List Line) : Except DecodeError Instr :=
  if ops = [[0x07, 0x02]] then .ok .waitidle
  else if ops = [[0x06]] then .ok .query
  else
    match feedLines ops with
    | some ls => .ok (.sendjob ls)
    | none => .error .notPseudo

/-! ## Lines on the wire -/

/-- The text before the checksum suffix of a line that verifies (R87: the checksum begins after the last ` *`). -/
def unsuffix (u : Line) : Line :=
  match splitLastStar u with
  | some (before, _) => before.dropLast
  | none => u

/-- The kind of a transmitted payload (R67): CHECKSUMMED when it is the checksummed form of a text the transform would have
given a suffix, else RAW. A RAW line that already held a correct suffix reads as CHECKSUMMED: the bytes do not tell (log 15). -/
def payloadKind (v : Variant) (payload : Line) : Instr :=
  let t := unsuffix payload
  if !v.isGrbl && ckVerify payload && isChecksummable t then .txChecksummed t else .txRaw payload

/-- One whole line on the wire: the payload and the terminator, nothing after it (R64). -/
def cutLine (v : Variant) (b : Line) : Except DecodeError Line :=
  match splitLine v.term.bytes b with
  | none => .error .noTerminator
  | some (l, []) => .ok l
  | some (_, _ :: _) => .error .innerTerminator

/-- A transmitted line (R64, R67). -/
def decodeTx (v : Variant) (b : Line) : Except DecodeError Instr :=
  match cutLine v b with
  | .ok p => .ok (payloadKind v p)
  | .error e => .error e

/-- The instruction of a received raw line: its class under the variant's table (R71, R73 to R75). -/
def classify (v : Variant) (raw : Line) : Instr :=
  match v with
  | .grbl09 | .grbl11 =>
    match grblClass (.ofRaw raw) with
    | .notice _ => .gNotice raw
    | .status _ => .gStatus raw
    | .ok => .gOk
    | .other _ => .gOther raw
  | .trinus =>
    match trinusClass (.ofRaw raw) with
    | .ckerr => .tCkerr
    | .error _ => .tError raw
    | .info _ => .tInfo raw
    | .ok => .tOk
    | .other _ => .tOther raw
  | .marlin =>
    match marlinClass (.ofRaw raw) with
    | .info _ => .mInfo raw
    | .ok => .mOk
    | .other _ => .mOther raw

/-- A received line (R71). -/
def decodeRx (v : Variant) (b : Line) : Except DecodeError Instr :=
  match cutLine v b with
  | .ok raw => .ok (classify v raw)
  | .error e => .error e

/-! ## Completion records and error codes -/

/-- A completion record (R28): the completion with the payload its code carries (R62). -/
inductive Completion where
  | ok (p : OkPayload)
  | suppressed
  | skipped
  | none
  | badline
  | empty
  | cancelled
  | rejected (r : Reason)
  | fatal (e : ErrCode) (text : Received)
deriving DecidableEq, Repr

/-- The completion codes, 4 bits (R62). -/
def Completion.code : Completion → BitVec 4
  | .ok _ => 0
  | .suppressed => 1
  | .skipped => 2
  | .none => 3
  | .badline => 4
  | .empty => 5
  | .cancelled => 6
  | .rejected _ => 7
  | .fatal _ _ => 8

/-- The error codes, 4 bits (R230); 0 is "no error recorded". -/
def ErrCode.code : ErrCode → BitVec 4
  | .grblBadAck => 1
  | .grblStatusParse => 2
  | .trinusDeviceError => 3
  | .rxOverrun => 4

/-- The fatal error of a code (R230); codes 0 and 5 to 15 name none. -/
def ErrCode.ofCode (c : BitVec 4) : Option ErrCode :=
  match c.toNat with
  | 1 => some .grblBadAck
  | 2 => some .grblStatusParse
  | 3 => some .trinusDeviceError
  | 4 => some .rxOverrun
  | _ => none

/-- The payload of a completion record as the host sees it beside the code (R28, R62). -/
inductive Payload where
  | nothing
  | text (t : Line)
  | report (r : StatusReport)
  | bad
  | reason (r : Reason)
  | error (code : BitVec 4) (text : Received)
deriving DecidableEq, Repr

/-- The payload a completion carries (R62). -/
def Completion.payload : Completion → Payload
  | .ok .nothing => .nothing
  | .ok (.text t) => .text t
  | .ok (.report r) => .report r
  | .suppressed => .nothing
  | .skipped => .nothing
  | .none => .nothing
  | .badline => .bad
  | .empty => .nothing
  | .cancelled => .nothing
  | .rejected r => .reason r
  | .fatal e t => .error e.code t

/-- The OK instruction of a payload (R62). -/
def okOfPayload : Payload → Except DecodeError Instr
  | .nothing => .ok (.cplOk .nothing)
  | .text t => .ok (.cplOk (.text t))
  | .report r => .ok (.cplOk (.report r))
  | .bad | .reason _ | .error _ _ => .error .payloadMismatch

/-- A completion from its code and payload (R62). The text of a FATAL record is not held against its code: a record that R230 never
produces (code 4 with a text, codes 2 and 3 with BAD) decodes too (DESIGN CHOICE, log 25). -/
def decodeCompletion (c : BitVec 4) (p : Payload) : Except DecodeError Instr :=
  match c.toNat, p with
  | 0, p => okOfPayload p
  | 1, .nothing => .ok .cplSuppressed
  | 2, .nothing => .ok .cplSkipped
  | 3, .nothing => .ok .cplNone
  | 4, .bad => .ok .cplBadline
  | 5, .nothing => .ok .cplEmpty
  | 6, .nothing => .ok .cplCancelled
  | 7, .reason r => .ok (.cplRejected r)
  | 8, .error e t =>
    match ErrCode.ofCode e with
    | some e => .ok (.cplFatal e t)
    | none => .error .unusedError
  | n, _ => if n ≤ 8 then .error .payloadMismatch else .error .unusedCompletion

/-- The instruction of a fatal error (R230). RX_OVERRUN records no text. -/
def ErrCode.instr (e : ErrCode) (text : Received) : Instr :=
  match e with
  | .grblBadAck => .errGrblBadAck text
  | .grblStatusParse => .errGrblStatusParse text
  | .trinusDeviceError => .errTrinusDeviceError text
  | .rxOverrun => .errRxOverrun

/-- An error code with its text (R230). Code 4 with a text is rejected, since its row keeps none; codes 2 and 3 with BAD, which R230
never produces, decode (DESIGN CHOICE, log 25). -/
def decodeError (c : BitVec 4) (text : Received) : Except DecodeError Instr :=
  match ErrCode.ofCode c with
  | some .rxOverrun => if text = .line [] then .ok .errRxOverrun else .error .payloadMismatch
  | some e => .ok (e.instr text)
  | none => .error .unusedError

/-! ## All formats -/

/-- An encoding, tagged by the format of its opcode-table row: the six formats are separate number spaces. -/
inductive Encoded where
  | hostop (bytes : Line)
  | pseudo (ops : List Line)
  | txline (v : Variant) (bytes : Line)
  | rxline (v : Variant) (bytes : Line)
  | completion (code : BitVec 4) (p : Payload)
  | errcode (code : BitVec 4) (text : Received)
deriving DecidableEq, Repr

/-- The decoder: total, every rejection named. -/
def decode : Encoded → Except DecodeError Instr
  | .hostop b => decodeBytes b
  | .pseudo ops => decodePseudo ops
  | .txline v b => decodeTx v b
  | .rxline v b => decodeRx v b
  | .completion c p => decodeCompletion c p
  | .errcode c t => decodeError c t

/-! ## The encoder -/

/-- The operand bytes of a predicate (R61; log 9). -/
def Pred.bytes : Pred → Line
  | .gate11 n => 0x01 :: dec n
  | p => [p.selector.setWidth 8]

/-- The raw line, as received, of a class that is one exact text. -/
def encodeRx (v : Variant) (raw : Line) : Encoded := .rxline v (raw ++ v.term.bytes)

/-- The encoding of a completion. -/
def encodeCompletion (c : Completion) : Encoded := .completion c.code c.payload

/-- The encoder, under a variant (R87). -/
def encode (v : Variant) : Instr → Encoded
  | .setvar w => .hostop [0x01, w.bits.setWidth 8]
  | .openOp i => .hostop [0x02, if i then 1 else 0]
  | .close => .hostop [0x03]
  | .queue l => .hostop (0x04 :: l)
  | .feed l => .hostop (0x05 :: l)
  | .status => .hostop [0x06]
  | .waitst p => .hostop (0x07 :: p.bytes)
  | .npop => .hostop [0x08]
  | .topen => .hostop [0x09]
  | .rdline => .hostop [0x0A]
  | .wrline t => .hostop (0x0B :: t)
  | .unassigned c => .hostop [c]
  | .waitidle => .pseudo [[0x07, 0x02]]
  | .sendjob ls => .pseudo (ls.map (0x05 :: ·))
  | .query => .pseudo [[0x06]]
  | .txRaw p => .txline v (p ++ v.term.bytes)
  | .txChecksummed t => .txline v (ckAppend t ++ v.term.bytes)
  | .gNotice raw => encodeRx v raw
  | .gStatus raw => encodeRx v raw
  | .gOk => encodeRx v okText
  | .gOther raw => encodeRx v raw
  | .tCkerr => encodeRx v ckerrText
  | .tError raw => encodeRx v raw
  | .tInfo raw => encodeRx v raw
  | .tOk => encodeRx v okText
  | .tOther raw => encodeRx v raw
  | .mInfo raw => encodeRx v raw
  | .mOk => encodeRx v okText
  | .mOther raw => encodeRx v raw
  | .cplOk p => encodeCompletion (.ok p)
  | .cplSuppressed => encodeCompletion .suppressed
  | .cplSkipped => encodeCompletion .skipped
  | .cplNone => encodeCompletion .none
  | .cplBadline => encodeCompletion .badline
  | .cplEmpty => encodeCompletion .empty
  | .cplCancelled => encodeCompletion .cancelled
  | .cplRejected r => encodeCompletion (.rejected r)
  | .cplFatal e t => encodeCompletion (.fatal e t)
  | .errGrblBadAck t => .errcode ErrCode.grblBadAck.code t
  | .errGrblStatusParse t => .errcode ErrCode.grblStatusParse.code t
  | .errTrinusDeviceError t => .errcode ErrCode.trinusDeviceError.code t
  | .errRxOverrun => .errcode ErrCode.rxOverrun.code (.line [])

/-! ## The opcode table's words -/

/-- The low `k` bytes of a word, least significant first (the table numbers bit 0 as the least significant bit of the first
byte). -/
def wordBytesGo : Nat → Nat → Line
  | 0, _ => []
  | k + 1, w => BitVec.ofNat 8 w :: wordBytesGo k (w / 256)

/-- Operand bytes of zero that a fixed-size operand still needs (every bit above the table's is 0). -/
def padOperand (b : Line) : Line :=
  match b with
  | [c] => if c.toNat = 1 ∨ c.toNat = 2 ∨ c.toNat = 7 then [c, 0] else [c]
  | b => b

/-- The byte form of a table word. -/
def wordBytes (nbits w : Nat) : Line := padOperand (wordBytesGo (nbits / 8) w)

/-- The instruction the decoder reads from a table word. A word is read as a host operation's bytes: op codes are the block's
only instruction port (log 18). -/
def decodeTableWord (nbits w : Nat) : Option Instr :=
  match decodeBytes (wordBytes nbits w) with
  | .ok i => some i
  | .error _ => none

/-- The record that puts a table word on the host port; a word that decodes to nothing leaves the port empty. -/
def portOfWord (nbits w : Nat) : List PortOp :=
  match HostOp.ofBytes (wordBytes nbits w) with
  | .ok r => [.op r]
  | .error _ => []

/-! ## The mnemonic syntax of R63 -/

/-- A byte string as a string, one character per byte. -/
def lineText (l : Line) : String := String.ofList (l.map fun b => Char.ofNat b.toNat)

/-- A line operand between double quotes (R63). -/
def quoted (l : Line) : String := "\"" ++ lineText l ++ "\""

/-- A variant by name (R63). -/
def Variant.name : Variant → String
  | .grbl09 => "GRBL09"
  | .grbl11 => "GRBL11"
  | .trinus => "TRINUS"
  | .marlin => "MARLIN"

/-- A predicate by name (R63). -/
def Pred.name : Pred → String
  | .gate09 => "GATE09"
  | .gate11 n => "GATE11(" ++ lineText (dec n) ++ ")"
  | .idle => "IDLE"
  | .custom => "CUSTOM"

/-- The mnemonic form of what a host may present (R63); `none` for rows that are no host operation. -/
def Instr.hostText : Instr → Option String
  | .setvar v => some ("SETVAR " ++ v.name)
  | .openOp i => some (if i then "OPEN 1" else "OPEN 0")
  | .close => some "CLOSE"
  | .queue l => some ("QUEUE " ++ quoted l)
  | .feed l => some ("FEED " ++ quoted l)
  | .status => some "STATUS"
  | .waitst p => some ("WAITST " ++ p.name)
  | .npop => some "NPOP"
  | .topen => some "TOPEN"
  | .rdline => some "RDLINE"
  | .wrline t => some ("WRLINE " ++ quoted t)
  | .waitidle => some "WAITIDLE"
  | .sendjob ls => some ("SENDJOB " ++ ", ".intercalate (ls.map quoted))
  | .query => some "QUERY"
  | _ => none

end Sys2Proof
end

