-- ==== Sys2Proof/Machine/State.lean ====
section
/-!
DEFINITION. The block's state as plain data (10_state.md rules R10 to R30) and the inputs of a step beside it (00_scope.md R8), the
reasons a step can stop, and the state after
reset (R34, R260).
-/

namespace Sys2Proof.Machine

/-- Why the machine stops with a fault. Only `WriteLine` outside the domain R108 gives it faults; no step from a state that
meets the invariant does (log 11). -/
inductive Fault where
  /-- Raised by TX_RAW and TX_CHECKSUMMED executed while `LINK = 0`: "`WriteLine()` requires `LINK = 1`" (R108) and gives no
  effect otherwise. Safe: the model stops where the spec says nothing. -/
  | txLinkDown
  /-- Raised by TX_RAW and TX_CHECKSUMMED executed on a payload that holds the session's terminator: `WriteLine(t)` takes "a byte
  string not containing `TERM`" (R108). Safe, as above. -/
  | txHoldsTerm
deriving DecidableEq, Repr

/-- Why the machine refuses an instruction. -/
inductive Refusal where
  /-- Raised by `exec` for a row that has no meaning yet; no row is left so. Safe. -/
  | notModelled (mnemonic : String)
deriving DecidableEq, Repr

/-- The host operations by name, as in `BUSY(op)` (R13). -/
inductive Op where
  | setvar
  | openOp
  | close
  | queue
  | feed
  | status
  | waitst
  | npop
  | topen
  | rdline
  | wrline
deriving DecidableEq, Repr

/-- What a status acquisition returns to (R175, R176, R181, R184), with the executing operation's operand where what follows still
reads it (DESIGN CHOICE, log 27). -/
inductive AcqUse where
  /-- STATUS. -/
  | status
  /-- `WaitStatus(p)` of WAITST. -/
  | waitst (p : Pred)
  /-- `WaitStatus` in the gate of `QueueGrbl(L)`. -/
  | gate (l : Line)
deriving DecidableEq, Repr

/-- The unbounded reading loops, each with a cancel point at its top (R241). `ack` and `acq` keep the executing operation's operand
(DESIGN CHOICE, log 27). -/
inductive Loop where
  /-- The OPEN drain (R142, R143). -/
  | drain
  /-- The loop of `Status()` (R175). -/
  | acq (k : AcqUse)
  /-- `AckLoop()` of `QueueGrbl(L)` (R185). -/
  | ack (l : Line)
  /-- `ReceiveTrinus()` (R202). -/
  | recvTrinus
  /-- `ReceiveMarlin()` (R217). -/
  | recvMarlin
deriving DecidableEq, Repr

/-- The sequencer's position in the pseudocode of the executing operation: "the model's own control state" (R13),
with the operand the rest of the pseudocode reads (DESIGN CHOICE, log 27). -/
inductive Ctl where
  /-- Accepted, no line of the pseudocode run yet. -/
  | start
  /-- At the cancel point at the top of a loop. -/
  | top (l : Loop)
  /-- Past the cancel point, inside `ReadLine()`. -/
  | read (l : Loop)
  /-- Inside `ReadLine()` of the program-end reads, `n` of them left (R186). -/
  | pgmEnd (n : Nat)
  /-- Inside the one `ReadLine()` of RDLINE (R111). -/
  | rdline
  /-- At the cancel point of `Sleep()` (R182). -/
  | sleepTop (k : AcqUse)
  /-- Waiting for the poll-interval event (R182). -/
  | sleep (k : AcqUse)
deriving DecidableEq, Repr

/-- `PH` (R13). -/
inductive Phase where
  | closed
  | ready
  | busy (op : Op) (c : Ctl)
  | faulted
deriving DecidableEq, Repr

/-- `BUSY(op)` for some `op`. -/
def Phase.isBusy : Phase → Bool
  | .busy _ _ => true
  | .closed | .ready | .faulted => false

/-- The class of a LOG record (R30). -/
inductive LogClass where
  | tx
  | rx
  | ignored
  | discarded
  | notice
  | status
  | error
deriving DecidableEq, Repr

/-- A LOG record: its class and a text or `BAD` (R30). -/
structure LogRec where
  cls  : LogClass
  text : Received
deriving DecidableEq, Repr

/-- One entry of the environment's schedule (R7; log 4). -/
inductive Input where
  /-- The sequencer takes its turn. -/
  | tick
  /-- The device sends bytes (R102). -/
  | rx (d : Line)
  /-- The read time-out event (R105). -/
  | timeout
  /-- The poll-interval event (R182). -/
  | poll
  /-- CANCEL is asserted (R29). -/
  | cancel
  /-- The host has a further operation to present (R27). -/
  | present (p : PortOp)
  /-- Reset (R260). -/
  | reset
deriving DecidableEq, Repr

/-- The architectural state of the block: exactly the components of R10's list, and nothing else. `CFG.TERM` is derived (R12), see
`State.term`. -/
structure Block where
  /-- `CFG.VARIANT` (R11). -/
  variant    : Variant
  /-- `PH` (R13). -/
  ph         : Phase
  /-- `LINK` (R14). -/
  link       : Bool
  /-- `RXBUF` (R15). -/
  rxbuf      : Line
  /-- `TXOUT` (R16). -/
  txout      : Line
  /-- `CUR` (R17). -/
  cur        : Line
  /-- `INFLIGHT` (R18). -/
  inflight   : Bool
  /-- `RESEND` (R19). -/
  resend     : Bool
  /-- `CANCEL` (R20). -/
  cancel     : Bool
  /-- `ST.VALID` (R21). -/
  stValid    : Bool
  /-- `ST.STATE`, `ST.SUB`, `ST.CMDBUF`, `ST.RXBUF`, `ST.MPOS`, `ST.WPOS`, `ST.LN`, `ST.FEED` (R21, R22). -/
  st         : StatusReport
  /-- `ST.CAPT` (R23). -/
  stCapt     : Bool
  /-- `NOTICEQ`, oldest first (R24). -/
  noticeq    : List Line
  /-- `NOVF` (R25). -/
  novf       : Bool
  /-- `ERR.CODE` (R26). -/
  errCode    : BitVec 4
  /-- `ERR.TEXT` (R26). -/
  errText    : Received
  /-- The host operation port (R27): what the host has to present, oldest first; the head stands on the port (log 6). -/
  port       : List PortOp
  /-- The completion record (R28): the record last produced, `none` when none is pending. -/
  completion : Option Completion
  /-- `LOG` (R30), oldest first. -/
  log        : List LogRec
deriving DecidableEq, Repr

/-- Two of the three inputs of the step relation that R8 says are not state: the parameters and the choices of the environment. They
are the model's own data (DESIGN CHOICE, log 26); no component of the block is among them. The third, the current host operation's
operands, stands on the port until acceptance (R27) and then in the control position of `PH` (DESIGN CHOICE, log 27). -/
structure Surroundings where
  /-- The model's own: the build parameters (R3; log 2). -/
  par        : Params
  /-- The model's own: bytes the device has sent that a full RXBUF holds back (R56; log 8). -/
  carrier    : Line
  /-- The model's own: the lines of a SENDJOB not yet fed (R63; log 6). -/
  job        : List Line
  /-- The model's own: the environment's schedule (R7; log 4). -/
  inputs     : List Input
deriving DecidableEq, Repr

/-- What a step takes and gives: the block's state (R10), and beside it the inputs of the step relation (R8; log 26). -/
structure State extends Block, Surroundings
deriving DecidableEq, Repr

/-- The report fields of `ST.*` at reset: the spec leaves them unspecified; DESIGN CHOICE, log 1. -/
def StatusReport.atReset : StatusReport where
  state  := []
  sub    := none
  cmdbuf := 0
  rxbuf  := 0
  mpos   := none
  wpos   := none
  ln     := none
  feed   := none

/-- The reset state of R34 under given build parameters. -/
def State.resetWith (p : Params) : State where
  variant    := .grbl09
  ph         := .closed
  link       := false
  rxbuf      := []
  txout      := []
  cur        := []
  inflight   := false
  resend     := false
  cancel     := false
  stValid    := false
  st         := StatusReport.atReset
  stCapt     := false
  noticeq    := []
  novf       := false
  errCode    := 0
  errText    := .line []
  port       := []
  completion := none
  log        := []
  par        := p
  carrier    := []
  job        := []
  inputs     := []

/-- The machine right after reset (R34, R260). -/
def State.reset : State := State.resetWith Params.suggested

end Sys2Proof.Machine
end

