-- ==== Sys2Proof/Machine/Flags.lean ====
section
/-!
DEFINITION. The block's one-bit state: what sets and clears each flag (10_state.md rules R18 to R20, R23, R25, R33), and the
derived bits (R12).
-/

namespace Sys2Proof.Machine

/-- The bytes of `TERM` in the present configuration (R12). -/
def State.term (s : State) : Line := s.variant.term.bytes

/-- `CFG.TERM` (R12): derived from `CFG.VARIANT`, read-only. -/
def State.cfgTerm (s : State) : BitVec 1 := s.variant.term.bit

/-- The transmitted line is in flight (R18). -/
def State.setInflight (s : State) : State := { s with inflight := true }

/-- The terminal acknowledgment was observed (R18). -/
def State.clearInflight (s : State) : State := { s with inflight := false }

/-- "Mark for resend" (R19, R202). -/
def State.setResend (s : State) : State := { s with resend := true }

/-- A (re)transmission clears the mark (R19, R201). -/
def State.clearResend (s : State) : State := { s with resend := false }

/-- The environment asserts CANCEL (R20, R29). -/
def State.setCancel (s : State) : State := { s with cancel := true }

/-- A cancel point or an acceptance consumes the latch (R20, R140, R241). -/
def State.clearCancel (s : State) : State := { s with cancel := false }

/-- A status acquisition starts (R23, R175). -/
def State.clearCapt (s : State) : State := { s with stCapt := false }

/-- RXBUF is at its capacity (R56); never with the unbounded default. -/
def State.rxFull (s : State) : Bool :=
  match s.par.rxLineMax with
  | none => false
  | some m => decide (m ≤ s.rxbuf.length)

/-- NOTICEQ has room (R150). -/
def State.noticeRoom (s : State) : Bool :=
  match s.par.nqMax with
  | none => true
  | some m => decide (s.noticeq.length < m)

end Sys2Proof.Machine
end

