-- ==== Sys2Proof/Machine/Operands.lean ====
section
/-!
DEFINITION. Operands and what is tested on them: the acceptance tables of 42_session_common.md R140, the operand checks of R146
and 40_transport.md R112, the predicates of 43_grbl.md R177 to R180.
-/

namespace Sys2Proof.Machine

/-- `|L| <= CMD_LINE_MAX` (R61). -/
def lengthOk (p : Params) (l : Line) : Bool :=
  match p.cmdLineMax with
  | none => true
  | some m => decide (l.length ≤ m)

/-- The operand check of QUEUE and FEED (R146). -/
def commandOk (p : Params) (l : Line) : Bool := lengthOk p l && l.all isPrintable

/-- The operand check of WRLINE (R112). -/
def wrlineOk (p : Params) (term t : Line) : Bool := lengthOk p t && !hasLine term t

/-- The phase table of R140. -/
def Op.admits : Op → Phase → Bool
  | .setvar, .closed => true
  | .openOp, .closed => true
  | .topen, .closed => true
  | .close, .closed => true
  | .close, .ready => true
  | .close, .faulted => true
  | .queue, .ready => true
  | .feed, .ready => true
  | .status, .ready => true
  | .waitst, .ready => true
  | .rdline, .ready => true
  | .wrline, .ready => true
  | .npop, .closed => true
  | .npop, .ready => true
  | .npop, .faulted => true
  | _, _ => false

/-- The variant check of R140: STATUS and WAITST exist on the Grbl variants only. -/
def Op.variantOk : Op → Variant → Bool
  | .status, v => v.isGrbl
  | .waitst, v => v.isGrbl
  | _, _ => true

/-- The first check of R140 that fails, in the rule's order: phase, variant, operand (`argOk` is the operand check's verdict). -/
def rejection (op : Op) (argOk : Bool) (s : State) : Option Reason :=
  if !op.admits s.ph then some .badPhase
  else if !op.variantOk s.variant then some .badVariant
  else if !argOk then some .badArg
  else none

/-- `GATE09(rep)` (R177). -/
def gate09 (r : StatusReport) : Bool := decide (r.cmdbuf.toNat < 10) && decide (r.rxbuf.toNat < 100)

/-- `GATE11(n)(rep)` (R178): the sum is exact. -/
def gate11 (n : Nat) (r : StatusReport) : Bool := decide (2 < r.cmdbuf.toNat) && decide (5 + n < r.rxbuf.toNat)

/-- The idle token (R89). -/
def idleText : Line := ascii "Idle"

/-- `IDLE(rep)` (R179). -/
def isIdle (r : StatusReport) : Bool := r.state == idleText

/-- The predicate of a selector (R61, R177 to R180). -/
def holds : Pred → StatusReport → Bool
  | .gate09, r => gate09 r
  | .gate11 n, r => gate11 n r
  | .idle, r => isIdle r
  | .custom, r => Config.pCustom r

/-- The flow-control predicate of a variant for a pending line (R184). TRINUS and MARLIN have no gate (log 23). -/
def gatePred (v : Variant) (l : Line) : Pred :=
  match v with
  | .grbl09 => .gate09
  | .grbl11 | .trinus | .marlin => .gate11 l.length

end Sys2Proof.Machine
end

