-- ==== Sys2Proof/Machine/Ops.lean ====
section
/-!
DEFINITION. The named operations over the state: LOG, the framer's `LinkUp`, `LinkDown`, `WriteLine` and arrival of bytes
(40_transport.md), `push` (42_session_common.md R150), `Store` (43_grbl.md R174), acceptance and completion (R140, R28), and
taking a fatal error as one shared operation (60_exceptions.md R236).
-/

namespace Sys2Proof.Machine

/-- `Log(class, t)` (R30; log 22). -/
def State.logged (s : State) (c : LogClass) (r : Received) : State := { s with log := s.log ++ [⟨c, r⟩] }

/-- The sequencer moves to a position inside the executing operation (R13). -/
def State.goto (s : State) (op : Op) (c : Ctl) : State := { s with ph := .busy op c }

/-- `LinkUp()` (R100): a new connection starts with nothing buffered. -/
def State.linkUp (s : State) : State := { s with rxbuf := [], carrier := [], link := true }

/-- `LinkDown()` (R101). Bytes the carrier still held back are lost with the link (R55; DESIGN CHOICE, log 8). -/
def State.linkDown (s : State) : State := { s with link := false, carrier := [] }

/-- `WriteLine(t)` (R108, R109): one atomic append of the line and its terminator. -/
def State.writeLine (s : State) (t : Line) : State :=
  { s with txout := s.txout ++ t ++ s.term, log := s.log ++ [⟨.tx, .line t⟩] }

/-- `push(t)` (R150): the one way a notice enters the queue. -/
def State.push (s : State) (t : Line) : State :=
  if s.noticeRoom then { s with noticeq := s.noticeq ++ [t], log := s.log ++ [⟨.notice, .line t⟩] }
  else { s with novf := true, log := s.log ++ [⟨.discarded, .line t⟩] }

/-- `Store(rep)` and what `Route` does after it (R171, R174): all report registers at once, `ST.CAPT`, and the record. -/
def State.captured (s : State) (t : Line) (rep : StatusReport) : State :=
  { s with stValid := true, st := rep, stCapt := true, log := s.log ++ [⟨.status, .line t⟩] }

/-- Re-initialisation of the session state (R35, R142). `ST.VALID` is cleared; the other report registers are not touched
(DEDUCED, log 20). -/
def State.reinit (s : State) : State :=
  { s with
    rxbuf := [], cur := [], inflight := false, resend := false, stValid := false, stCapt := false, noticeq := [],
    novf := false, errCode := 0, errText := .line [] }

/-- The phase after an operation completes without a fatal error (R141, R144, R149, R151); NPOP restores its own (log 12). -/
def Op.endPhase : Op → Phase
  | .setvar => .closed
  | .close => .closed
  | .openOp | .queue | .feed | .status | .waitst | .npop | .topen | .rdline | .wrline => .ready

/-- Where the phase goes when a record is produced: an executing operation ends, any other phase stays (R140, R151, R251). -/
def Phase.afterCompletion : Phase → Phase
  | .busy op _ => op.endPhase
  | p => p

/-- `complete <code>(payload)` (R5, R28): the completion record, and the end of the executing operation. -/
def State.complete (s : State) (c : Completion) : State :=
  { s with completion := some c, ph := s.ph.afterCompletion }

/-- Acceptance (R140): clears the CANCEL latch, no record is pending while the operation runs (DESIGN CHOICE, log 7),
`PH <- BUSY(op)`. -/
def State.accept (s : State) (op : Op) : State :=
  { s with cancel := false, completion := none, ph := .busy op .start }

/-- An operation is presented (R140, R27): the port is not ready while BUSY, so nothing happens then (log 14); a failed check gives
the REJECTED record and changes nothing else; otherwise the operation is accepted and its pseudocode runs. -/
def present (op : Op) (argOk : Bool) (s : State) (body : State → State) : State :=
  if s.ph.isBusy then s
  else
    match rejection op argOk s with
    | some r => s.complete (.rejected r)
    | none => body (s.accept op)

/-- An unassigned op code is presented (R82, R140 (1)). -/
def presentUnassigned (s : State) : State :=
  if s.ph.isBusy then s else s.complete (.rejected .badOp)

/-- The completion record a fatal error leaves: FATAL if an operation was executing, else the pending one stays (R236). -/
def State.fatalRecord (s : State) (e : ErrCode) (text : Received) : Option Completion :=
  if s.ph.isBusy then some (.fatal e text) else s.completion

/-- TAKING A FATAL ERROR, `raise X(text)` (R236), as one step: ERR.* recorded, INFLIGHT cleared, the link released, the record,
`PH <- FAULTED`. Nothing else changes. -/
def State.raise (s : State) (e : ErrCode) (text : Received) : State :=
  { s with
    errCode := e.code, errText := text, inflight := false, link := false, carrier := [],
    log := s.log ++ [⟨.error, text⟩], completion := s.fatalRecord e text, ph := .faulted }

/-- Arrival of bytes (R102, R56), byte by byte: a byte that finds RXBUF full with no complete line is RX_OVERRUN (its text is
empty, R230) and nothing more arrives; one that finds it full with a complete line is held back with all behind it
(DESIGN CHOICE, log 8, log 21). -/
def arrive : Line → State → State
  | [], s => s
  | b :: bs, s =>
    if s.rxFull then
      if hasLine s.term s.rxbuf then { s with carrier := b :: bs } else s.raise .rxOverrun (.line [])
    else arrive bs { s with rxbuf := s.rxbuf ++ [b] }

/-- The device sends bytes: they arrive behind those held back; while `LINK = 0` they are lost (R55, R102). -/
def State.deviceSends (s : State) (d : Line) : State :=
  if s.link then arrive (s.carrier ++ d) { s with carrier := [] } else s

/-- `CancelPoint()` (R241): either the operation completes CANCELLED and the latch is consumed, or it goes on. -/
def cancelPoint (s : State) (goOn : State) : State :=
  if s.cancel then s.clearCancel.complete .cancelled else goOn

end Sys2Proof.Machine
end

