-- ==== Sys2Proof/Machine/Completions.lean ====
section
/-!
DEFINITION. The completion codes (30_encoding.md R62) and the error codes (60_exceptions.md R230) as the steps they stand for:
producing the completion record (10_state.md R28) and taking the fatal error (R236). DESIGN CHOICE, log 12.
-/

namespace Sys2Proof.Machine

/-- OK (R62). -/
def execCplOk (p : OkPayload) (s : State) : Host.Outcome State Fault Refusal := .next (s.complete (.ok p))

/-- SUPPRESSED (R62). -/
def execCplSuppressed (s : State) : Host.Outcome State Fault Refusal := .next (s.complete .suppressed)

/-- SKIPPED (R62). -/
def execCplSkipped (s : State) : Host.Outcome State Fault Refusal := .next (s.complete .skipped)

/-- NONE (R62). -/
def execCplNone (s : State) : Host.Outcome State Fault Refusal := .next (s.complete .none)

/-- BADLINE (R62). -/
def execCplBadline (s : State) : Host.Outcome State Fault Refusal := .next (s.complete .badline)

/-- EMPTY (R62). -/
def execCplEmpty (s : State) : Host.Outcome State Fault Refusal := .next (s.complete .empty)

/-- CANCELLED (R62, R241): the latch is consumed with the completion. -/
def execCplCancelled (s : State) : Host.Outcome State Fault Refusal := .next (s.clearCancel.complete .cancelled)

/-- REJECTED (R62, R140, R251). -/
def execCplRejected (r : Reason) (s : State) : Host.Outcome State Fault Refusal := .next (s.complete (.rejected r))

/-- FATAL (R62): the completion of a fatal error, which is taken whole (R236), with the text the record carries, one that R230 never
produces included (DESIGN CHOICE, log 25). -/
def execCplFatal (e : ErrCode) (text : Received) (s : State) : Host.Outcome State Fault Refusal := .next (s.raise e text)

/-- GRBL_BAD_ACK (R230, R231, R236). -/
def execErrGrblBadAck (text : Received) (s : State) : Host.Outcome State Fault Refusal :=
  .next (s.raise .grblBadAck text)

/-- GRBL_STATUS_PARSE (R230, R232, R236). Its text is taken as it is, BAD included (DESIGN CHOICE, log 25). -/
def execErrGrblStatusParse (text : Received) (s : State) : Host.Outcome State Fault Refusal :=
  .next (s.raise .grblStatusParse text)

/-- TRINUS_DEVICE_ERROR (R230, R233, R236). Its text is taken as it is, BAD included (DESIGN CHOICE, log 25). -/
def execErrTrinusDeviceError (text : Received) (s : State) : Host.Outcome State Fault Refusal :=
  .next (s.raise .trinusDeviceError text)

/-- RX_OVERRUN (R230, R234, R236): its text is empty. -/
def execErrRxOverrun (s : State) : Host.Outcome State Fault Refusal :=
  .next (s.raise .rxOverrun (.line []))

end Sys2Proof.Machine
end

