-- ==== Sys2Proof/Machine/Grammar.lean ====
section
/-!
DEFINITION. The two Grbl status grammars (30_encoding.md rules R76 to R79) and `ParseStatus` (43_grbl.md rule R172), as one
left-to-right scan each. `none` is FAIL: a parse fully succeeds or gives nothing.
-/

namespace Sys2Proof

/-- `STATE` at the head of a string (R76): one or more letters, and the rest. -/
def takeState (s : Line) : Option (Line × Line) :=
  let w := s.takeWhile isLetter
  if w.isEmpty then none else some (w, s.dropWhile isLetter)

/-- `UINT` at the head of a string (R76): 1 to 9 digits (10 or more fail), its value (R70), and the rest. -/
def takeUint (s : Line) : Option (Num × Line) :=
  let w := s.takeWhile isDigit
  if 1 ≤ w.length ∧ w.length ≤ 9 then some (BitVec.ofNat 32 (num w), s.dropWhile isDigit) else none

/-- The unsigned part of `NUMBER`: digits, then an optional point and digits. -/
def takeUnsigned (s : Line) : Option (Line × Line) :=
  let w := s.takeWhile isDigit
  if w.isEmpty then none
  else
    match s.dropWhile isDigit with
    | [] => some (w, [])
    | b :: r =>
      if b = 0x2E then some (w ++ b :: r.takeWhile isDigit, r.dropWhile isDigit) else some (w, b :: r)

/-- `NUMBER` at the head of a string (R76), as the text it stands for (R77), and the rest. -/
def takeNumber (s : Line) : Option (Line × Line) :=
  match s with
  | [] => none
  | b :: r => if b = 0x2D then (takeUnsigned r).map fun w => (b :: w.1, w.2) else takeUnsigned (b :: r)

/-- A literal at the head of a string, and the rest. -/
def takeLit (p s : Line) : Option Line := if isPrefix p s then some (s.drop p.length) else none

/-- `TRIPLE` at the head of a string (R76): exactly three numbers. -/
def takeTriple (s : Line) : Option (Triple × Line) := do
  let (x, s) ← takeNumber s
  let s ← takeLit (ascii ",") s
  let (y, s) ← takeNumber s
  let s ← takeLit (ascii ",") s
  let (z, s) ← takeNumber s
  return (⟨x, y, z⟩, s)

/-- A production that must take the whole string. -/
def whole {α : Type} (r : Option (α × Line)) : Option α :=
  match r with
  | some (a, []) => some a
  | _ => none

/-- `UINT "," UINT` (R78). -/
def takePair (s : Line) : Option ((Num × Num) × Line) := do
  let (a, s) ← takeUint s
  let s ← takeLit (ascii ",") s
  let (b, s) ← takeUint s
  return ((a, b), s)

/-- The string cut at every byte `sep`: always at least one part. -/
def cutAt (sep : Byte) : Line → List Line
  | [] => [[]]
  | b :: bs =>
    if b = sep then [] :: cutAt sep bs
    else
      match cutAt sep bs with
      | [] => [[b]]
      | p :: ps => (b :: p) :: ps

/-- What the fields of a Grbl 1.1 report have given so far (R78). -/
structure Fields11 where
  bf   : Option (Num × Num)
  mpos : Option Triple
  wpos : Option Triple
  ln   : Option Num
  feed : Option Line
deriving DecidableEq, Repr

/-- A field that may be set once (R78: a second occurrence is a parse failure). -/
def setOnce {α : Type} (old : Option α) (new : Option α) : Option (Option α) :=
  match old, new with
  | none, some a => some (some a)
  | _, _ => none

/-- One field `KEY:VALUE` of a Grbl 1.1 report (R78). A known key must match its production; an unknown key is accepted and
dropped; an empty field and a field without a colon fail. -/
def field11 (f : Fields11) (s : Line) : Option Fields11 := do
  let (key, rest) ← takeState s
  let val ← takeLit (ascii ":") rest
  if key = ascii "Bf" then
    return { f with bf := ← setOnce f.bf (whole (takePair val)) }
  else if key = ascii "MPos" then
    return { f with mpos := ← setOnce f.mpos (whole (takeTriple val)) }
  else if key = ascii "WPos" then
    return { f with wpos := ← setOnce f.wpos (whole (takeTriple val)) }
  else if key = ascii "Ln" then
    return { f with ln := ← setOnce f.ln (whole (takeUint val)) }
  else if key = ascii "F" then
    return { f with feed := ← setOnce f.feed (whole (takeNumber val)) }
  else if val.any (fun b => b == 0x3C || b == 0x3E) then none
  else return f

/-- All fields of a Grbl 1.1 report, in any order (R78). -/
def fields11 (f : Fields11) : List Line → Option Fields11
  | [] => some f
  | s :: ss => (field11 f s).bind fun f' => fields11 f' ss

/-- `STATE [":" UINT]`, the first part of a Grbl 1.1 report (R78). -/
def head11 (s : Line) : Option (Line × Option Num) := do
  let (st, rest) ← takeState s
  if rest.isEmpty then return (st, none)
  let rest ← takeLit (ascii ":") rest
  let n ← whole (takeUint rest)
  return (st, some n)

/-- The bytes between the first and the last byte of a status-shaped line. -/
def inner (t : Line) : Line := (t.drop 1).dropLast

/-- The Grbl 1.1 grammar (R78): the fields are separated by `|` (byte `7C`) and `Bf` is mandatory. -/
def parse11 (t : Line) : Option StatusReport :=
  if isStatusShaped t then
    match cutAt 0x7C (inner t) with
    | [] => none
    | h :: fs => do
      let (st, sub) ← head11 h
      let f ← fields11 ⟨none, none, none, none, none⟩ fs
      let (c, r) ← f.bf
      return { state := st, sub := sub, cmdbuf := c, rxbuf := r, mpos := f.mpos, wpos := f.wpos, ln := f.ln, feed := f.feed }
  else none

/-- An optional group of the Grbl 0.9 grammar: if its key stands here its production must follow, else it is absent. -/
def optGroup {α : Type} (key : Line) (p : Line → Option (α × Line)) (s : Line) : Option (Option α × Line) :=
  match takeLit key s with
  | none => some (none, s)
  | some r => (p r).map fun x => (some x.1, x.2)

/-- The Grbl 0.9 grammar (R79): fixed order, `Buf` and `RX` mandatory, the other groups optional. -/
def parse09 (t : Line) : Option StatusReport := do
  let s ← takeLit (ascii "<") t
  let (st, s) ← takeState s
  let (mpos, s) ← optGroup (ascii ",MPos:") takeTriple s
  let (wpos, s) ← optGroup (ascii ",WPos:") takeTriple s
  let s ← takeLit (ascii ",Buf:") s
  let (c, s) ← takeUint s
  let s ← takeLit (ascii ",RX:") s
  let (r, s) ← takeUint s
  let (ln, s) ← optGroup (ascii ",Ln:") takeUint s
  let (feed, s) ← optGroup (ascii ",F:") takeNumber s
  if s = ascii ">" then
    return { state := st, sub := none, cmdbuf := c, rxbuf := r, mpos := mpos, wpos := wpos, ln := ln, feed := feed }
  else none

/-- `ParseStatus(t)` (R172): the grammar of the session's variant. TRINUS and MARLIN have no status lines (R190). -/
def parseStatus (v : Variant) (t : Line) : Option StatusReport :=
  match v with
  | .grbl09 => parse09 t
  | .grbl11 => parse11 t
  | .trinus | .marlin => none

end Sys2Proof
end

