-- ==== Sys2Proof/Machine/Receive.lean ====
section
/-!
DEFINITION. What each reading loop does with what `ReadLine()` returns: a line by its class (30_encoding.md R73 to R75;
43_grbl.md R175, R185, R186; 44_trinus.md R202, R203; 45_marlin.md R217; 42_session_common.md R142; 40_transport.md R111), or
`NONE` on a time-out; and the starts of the loops, which a resend or a next poll runs again.
-/

namespace Sys2Proof.Machine

/-! ## Starts -/

/-- The start of `Status()` (R175): one query, then the loop. -/
def startStatus (op : Op) (k : AcqUse) (s : State) : State :=
  (s.clearCapt.writeLine queryLine).goto op (.top (.acq k))

/-- `QueueGrbl(L)` after its gate (R184): the line goes out as given and is in flight. -/
def sendGrbl (op : Op) (l : Line) (s : State) : State :=
  (s.writeLine l).setInflight.goto op (.top (.ack l))

/-- One round of the Trinus resend loop (R201, R203): the mark is cleared, `CUR` is transmitted. -/
def sendTrinus (op : Op) (s : State) : State :=
  (s.clearResend.writeLine s.cur).setInflight.goto op (.top .recvTrinus)

/-- The one transmission of `QueueMarlin(L)` (R216). -/
def sendMarlin (op : Op) (s : State) : State :=
  (s.writeLine s.cur).setInflight.goto op (.top .recvMarlin)

/-! ## Grbl -/

/-- The acquisition has captured the report `rep` (R175, R176, R181, R183, R184). -/
def acquired (op : Op) (k : AcqUse) (rep : StatusReport) (s : State) : State :=
  match k with
  | .status => s.complete (.ok (.report rep))
  | .waitst p => if holds p rep then s.complete (.ok (.report rep)) else s.goto op (.sleepTop (.waitst p))
  | .gate l => if holds (gatePred s.variant l) rep then sendGrbl op l s else s.goto op (.sleepTop (.gate l))

/-- Status acquisition, by class (R73, R175). -/
def inAcq (op : Op) (k : AcqUse) (c : GClass) (s : State) : State :=
  match c with
  | .notice t => (s.push t).goto op (.top (.acq k))
  | .status t =>
    match parseStatus s.variant t with
    | none => s.raise .grblStatusParse (.line t)
    | some rep => acquired op k rep (s.captured t rep)
  | .ok => (s.logged .discarded (.line okText)).goto op (.top (.acq k))
  | .other r => (s.logged .discarded r).goto op (.top (.acq k))

/-- After the terminal acknowledgment (R184, R186): the four program-end reads, or the completion. -/
def acked (op : Op) (l : Line) (s : State) : State :=
  if s.par.pgmEnd.contains l then s.clearInflight.goto op (.pgmEnd 4)
  else s.clearInflight.complete (.ok (.text okText))

/-- The acknowledgment loop, by class (R73, R185). -/
def inAck (op : Op) (l : Line) (c : GClass) (s : State) : State :=
  match c with
  | .notice t => (s.push t).goto op (.top (.ack l))
  | .status t =>
    match parseStatus s.variant t with
    | none => s.raise .grblStatusParse (.line t)
    | some rep => (s.captured t rep).goto op (.top (.ack l))
  | .ok => acked op l s
  | .other r => s.raise .grblBadAck r

/-! ## Trinus and Marlin -/

/-- The Trinus receive loop, by class (R74, R202, R203). -/
def inTrinus (op : Op) (c : TClass) (s : State) : State :=
  match c with
  | .ckerr => s.setResend.goto op (.top .recvTrinus)
  | .error t => s.raise .trinusDeviceError (.line t)
  | .info t => (s.push t).goto op (.top .recvTrinus)
  | .ok => if s.resend then sendTrinus op s else s.clearInflight.complete (.ok (.text okText))
  | .other r => (s.logged .ignored r).goto op (.top .recvTrinus)

/-- The Marlin receive loop, by class (R75, R217). -/
def inMarlin (op : Op) (c : MClass) (s : State) : State :=
  match c with
  | .info t => (s.push t).goto op (.top .recvMarlin)
  | .ok => s.clearInflight.complete (.ok (.text okText))
  | .other r => (s.logged .ignored r).goto op (.top .recvMarlin)

/-! ## Reads that classify nothing -/

/-- The OPEN drain (R142, R143): whatever it is, it is discarded. -/
def inDrain (op : Op) (r : Received) (s : State) : State :=
  (s.logged .discarded r).goto op (.top .drain)

/-- One of the program-end reads is over, `n` were left (R186). -/
def pgmEndNext (op : Op) (n : Nat) (s : State) : State :=
  if n ≤ 1 then s.complete (.ok (.text okText)) else s.goto op (.pgmEnd (n - 1))

/-- RDLINE's read (R111). -/
def inRdline (r : Received) (s : State) : State :=
  match r with
  | .line t => s.complete (.ok (.text t))
  | .bad => s.complete .badline

/-! ## A received line, whatever reads it -/

/-- Is the sequencer inside `ReadLine()`? -/
def Ctl.reads : Ctl → Bool
  | .read _ | .pgmEnd _ | .rdline => true
  | .start | .top _ | .sleepTop _ | .sleep _ => false

/-- A raw line taken by the read at position `c`, classified by the rules of that read (R49, R71, R270). -/
def deliver (op : Op) (c : Ctl) (raw : Line) (s : State) : State :=
  let r := Received.ofRaw raw
  match c with
  | .read .drain => inDrain op r s
  | .read (.acq k) => inAcq op k (grblClass r) s
  | .read (.ack l) => inAck op l (grblClass r) s
  | .read .recvTrinus => inTrinus op (trinusClass r) s
  | .read .recvMarlin => inMarlin op (marlinClass r) s
  | .pgmEnd n => pgmEndNext op n (s.logged .discarded r)
  | .rdline => inRdline r s
  | .start | .top _ | .sleepTop _ | .sleep _ => s.deviceSends (raw ++ s.term)

/-- A raw line reaches the block: the read that waits takes it; where none waits it stays in RXBUF for the next read, and while
the link is down it is lost (R32, R55, R270; DESIGN CHOICE, log 10). -/
def receive (raw : Line) (s : State) : State :=
  match s.ph with
  | .busy op c => deliver op c raw s
  | .closed | .ready | .faulted => s.deviceSends (raw ++ s.term)

/-- A raw line of Grbl class `c`: its row of R73 in the two Grbl loops, the reader's own rule elsewhere. -/
def receiveGrbl (c : GClass) (raw : Line) (s : State) : State :=
  match s.ph with
  | .busy op (.read (.ack l)) => inAck op l c s
  | .busy op (.read (.acq k)) => inAcq op k c s
  | _ => receive raw s

/-- A raw line of Trinus class `c`: its row of R74 in the Trinus loop, the reader's own rule elsewhere. -/
def receiveTrinus (c : TClass) (raw : Line) (s : State) : State :=
  match s.ph with
  | .busy op (.read .recvTrinus) => inTrinus op c s
  | _ => receive raw s

/-- A raw line of Marlin class `c`: its row of R75 in the Marlin loop, the reader's own rule elsewhere. -/
def receiveMarlin (c : MClass) (raw : Line) (s : State) : State :=
  match s.ph with
  | .busy op (.read .recvMarlin) => inMarlin op c s
  | _ => receive raw s

/-! ## Time-outs -/

/-- `ReadLine()` returns `NONE` to the read at position `c` (R104 to R106, R235). -/
def timedOut (op : Op) (c : Ctl) (s : State) : State :=
  match c with
  | .read .drain => s.complete (.ok .nothing)
  | .read l => s.goto op (.top l)
  | .pgmEnd n => pgmEndNext op n s
  | .rdline => s.complete .none
  | .start | .top _ | .sleepTop _ | .sleep _ => s

end Sys2Proof.Machine
end

