-- ==== Sys2Proof/Machine/Grbl.lean ====
section
/-!
DEFINITION. The Grbl variants (43_grbl.md): STATUS and WAITST, their abbreviations QUERY and WAITIDLE (30_encoding.md R63), and
the Grbl classes of received lines (R73). The gate and the loops are in Receive.lean.
-/

namespace Sys2Proof.Machine

/-- `STATUS` (R176). -/
def execStatus (s : State) : Host.Outcome State Fault Refusal :=
  .next (present .status true s (startStatus .status .status))

/-- `WAITST p` (R181, R183): a fresh query first. -/
def execWaitst (p : Pred) (s : State) : Host.Outcome State Fault Refusal :=
  .next (present .waitst true s (startStatus .waitst (.waitst p)))

/-- `WAITIDLE` (R63) is `WAITST IDLE`. -/
def execWaitidle (s : State) : Host.Outcome State Fault Refusal :=
  .next (present .waitst true s (startStatus .waitst (.waitst .idle)))

/-- `QUERY` (R63) is `STATUS`. -/
def execQuery (s : State) : Host.Outcome State Fault Refusal :=
  .next (present .status true s (startStatus .status .status))

/-- G_NOTICE (R73 row 2, R171). -/
def execGNotice (raw : Line) (s : State) : Host.Outcome State Fault Refusal :=
  .next (receiveGrbl (.notice raw) raw s)

/-- G_STATUS (R73 row 3, R171, R172, R174). -/
def execGStatus (raw : Line) (s : State) : Host.Outcome State Fault Refusal :=
  .next (receiveGrbl (.status raw) raw s)

/-- G_OK (R73 row 4). -/
def execGOk (s : State) : Host.Outcome State Fault Refusal :=
  .next (receiveGrbl .ok okText s)

/-- G_OTHER (R73 rows 1 and 5): a text of no other class, or the placeholder. -/
def execGOther (raw : Line) (s : State) : Host.Outcome State Fault Refusal :=
  .next (receiveGrbl (.other (.ofRaw raw)) raw s)

end Sys2Proof.Machine
end

