-- ==== Sys2Proof/Machine/Marlin.lean ====
section
/-!
DEFINITION. The Marlin classes of received lines (30_encoding.md R75, 45_marlin.md R217). `QueueMarlin` is in Session.lean, the
loop in Receive.lean.
-/

namespace Sys2Proof.Machine

/-- M_INFO (R75 row 1). -/
def execMInfo (raw : Line) (s : State) : Host.Outcome State Fault Refusal :=
  .next (receiveMarlin (.info raw) raw s)

/-- M_OK (R75 row 2). -/
def execMOk (s : State) : Host.Outcome State Fault Refusal :=
  .next (receiveMarlin .ok okText s)

/-- M_OTHER (R75 row 3). -/
def execMOther (raw : Line) (s : State) : Host.Outcome State Fault Refusal :=
  .next (receiveMarlin (.other (.ofRaw raw)) raw s)

end Sys2Proof.Machine
end

