-- ==== Sys2Proof/Machine/Session.lean ====
section
/-!
DEFINITION. The session operations common to all variants (42_session_common.md): SETVAR, OPEN, CLOSE, QUEUE, FEED, NPOP, the
unassigned codes (30_encoding.md R82) and the abbreviation SENDJOB (R63).
-/

namespace Sys2Proof.Machine

/-- `SETVAR v` (R141). -/
def execSetvar (v : Variant) (s : State) : Host.Outcome State Fault Refusal :=
  .next (present .setvar true s fun s => { s with variant := v }.complete (.ok .nothing))

/-- The pseudocode of OPEN up to its first cancel point (R142): re-initialise, link up, two empty lines, the drain. -/
def openBody (s : State) : State :=
  ((s.reinit.linkUp.writeLine []).writeLine []).goto .openOp (.top .drain)

/-- `OPEN i` (R142): the operand is carried and ignored. -/
def execOpenOp (_initial : Bool) (s : State) : Host.Outcome State Fault Refusal :=
  .next (present .openOp true s openBody)

/-- `CLOSE` (R144): the link is released if it is up, nothing is transmitted. -/
def execClose (s : State) : Host.Outcome State Fault Refusal :=
  .next (present .close true s fun s => (if s.link then s.linkDown else s).complete (.ok .nothing))

/-- `QueueTrinus(L)` and `QueueMarlin(L)` up to their transform (R201, R216): suppression reads and sends nothing; else `CUR`
is latched and `send` transmits it. -/
def queueTransformed (l : Line) (send : State → State) (s : State) : State :=
  match shorten s.par l with
  | .suppress => s.complete .suppressed
  | .send u => send { s with cur := u }

/-- `QueueGrbl(L)` up to its first wait (R184, R187): the query line skips the gate. -/
def queueGrbl (op : Op) (l : Line) (s : State) : State :=
  if l = queryLine then sendGrbl op l s else startStatus op (.gate l) s

/-- The body of QUEUE and FEED (R145). -/
def queueBody (op : Op) (l : Line) (s : State) : State :=
  match s.variant with
  | .grbl09 | .grbl11 => queueGrbl op l s
  | .trinus => queueTransformed l (sendTrinus op) s
  | .marlin => queueTransformed l (sendMarlin op) s

/-- `QUEUE L` (R145, R146). -/
def execQueue (l : Line) (s : State) : Host.Outcome State Fault Refusal :=
  .next (present .queue (commandOk s.par l) s (queueBody .queue l))

/-- The body of FEED (R148): the skip filter, then as QUEUE. -/
def feedBody (l : Line) (s : State) : State :=
  if skip l then s.complete .skipped else queueBody .feed l s

/-- `FEED L` (R148, R146). -/
def execFeed (l : Line) (s : State) : Host.Outcome State Fault Refusal :=
  .next (present .feed (commandOk s.par l) s (feedBody l))

/-- The body of NPOP (R149); `p` is the phase it was presented in. -/
def npopBody (p : Phase) (s : State) : State :=
  match s.noticeq with
  | [] => { s.complete .empty with ph := p }
  | t :: rest => { { s with noticeq := rest }.complete (.ok (.text t)) with ph := p }

/-- `NPOP` (R149). -/
def execNpop (s : State) : Host.Outcome State Fault Refusal :=
  .next (present .npop true s (npopBody s.ph))

/-- An unassigned op code (R82, R140 (1)); the code itself does not matter. -/
def execUnassigned (_code : Byte) (s : State) : Host.Outcome State Fault Refusal :=
  .next (presentUnassigned s)

/-- `SENDJOB l1, ..., ln` (R63): `FEED l1` now, the rest one by one after it (`nextOfJob`). -/
def execSendjob (ls : List Line) (s : State) : Host.Outcome State Fault Refusal :=
  match ls with
  | [] => .next s
  | l :: rest =>
    if s.ph.isBusy then .next s
    else .next (present .feed (commandOk s.par l) { s with job := rest } (feedBody l))

end Sys2Proof.Machine
end

