-- ==== Sys2Proof/Machine/Transport.lean ====
section
/-!
DEFINITION. The host operations of the framer (40_transport.md R110 to R112) and the transmitted line kinds (30_encoding.md R64,
R67).
-/

namespace Sys2Proof.Machine

/-- `TOPEN` (R110). -/
def execTopen (s : State) : Host.Outcome State Fault Refusal :=
  .next (present .topen true s fun s => s.reinit.linkUp.complete (.ok .nothing))

/-- `RDLINE` (R111): exactly one `ReadLine()`, no cancel point. -/
def execRdline (s : State) : Host.Outcome State Fault Refusal :=
  .next (present .rdline true s fun s => s.goto .rdline .rdline)

/-- `WRLINE t` (R112). -/
def execWrline (t : Line) (s : State) : Host.Outcome State Fault Refusal :=
  .next (present .wrline (wrlineOk s.par s.term t) s fun s => (s.writeLine t).complete (.ok .nothing))

/-- `WriteLine` of a payload, on its domain (R64, R108): the link is up and the payload holds no terminator. -/
def transmit (payload : Line) (s : State) : Host.Outcome State Fault Refusal :=
  if !s.link then .fault .txLinkDown
  else if hasLine s.term payload then .fault .txHoldsTerm
  else .next (s.writeLine payload)

/-- TX_RAW (R67): the payload goes out as given. -/
def execTxRaw (payload : Line) (s : State) : Host.Outcome State Fault Refusal := transmit payload s

/-- TX_CHECKSUMMED (R67, R122): the text goes out with its checksum suffix. -/
def execTxChecksummed (t : Line) (s : State) : Host.Outcome State Fault Refusal := transmit (ckAppend t) s

end Sys2Proof.Machine
end

