-- ==== Sys2Proof/Machine/Trinus.lean ====
section
/-!
DEFINITION. The Trinus classes of received lines (30_encoding.md R74, 44_trinus.md R202, R203). `QueueTrinus` is in
Session.lean, the loop in Receive.lean.
-/

namespace Sys2Proof.Machine

/-- T_CKERR (R74 row 1). -/
def execTCkerr (s : State) : Host.Outcome State Fault Refusal :=
  .next (receiveTrinus .ckerr ckerrText s)

/-- T_ERROR (R74 row 2). -/
def execTError (raw : Line) (s : State) : Host.Outcome State Fault Refusal :=
  .next (receiveTrinus (.error raw) raw s)

/-- T_INFO (R74 row 3). -/
def execTInfo (raw : Line) (s : State) : Host.Outcome State Fault Refusal :=
  .next (receiveTrinus (.info raw) raw s)

/-- T_OK (R74 row 4). -/
def execTOk (s : State) : Host.Outcome State Fault Refusal :=
  .next (receiveTrinus .ok okText s)

/-- T_OTHER (R74 row 5). -/
def execTOther (raw : Line) (s : State) : Host.Outcome State Fault Refusal :=
  .next (receiveTrinus (.other (.ofRaw raw)) raw s)

end Sys2Proof.Machine
end

