-- ==== Sys2Proof/Machine/Dispatch.lean ====
section
/-!
DEFINITION. The dispatch: one arm per row of spec/opcode_table.json, each one direct call of its meaning.
-/

namespace Sys2Proof.Machine

def exec (i : Instr) (s : State) : Host.Outcome State Fault Refusal :=
  match i with
  | .setvar v => Sys2Proof.Machine.execSetvar v s
  | .openOp b => Sys2Proof.Machine.execOpenOp b s
  | .close => Sys2Proof.Machine.execClose s
  | .queue l => Sys2Proof.Machine.execQueue l s
  | .feed l => Sys2Proof.Machine.execFeed l s
  | .status => Sys2Proof.Machine.execStatus s
  | .waitst p => Sys2Proof.Machine.execWaitst p s
  | .npop => Sys2Proof.Machine.execNpop s
  | .topen => Sys2Proof.Machine.execTopen s
  | .rdline => Sys2Proof.Machine.execRdline s
  | .wrline t => Sys2Proof.Machine.execWrline t s
  | .unassigned c => Sys2Proof.Machine.execUnassigned c s
  | .waitidle => Sys2Proof.Machine.execWaitidle s
  | .sendjob ls => Sys2Proof.Machine.execSendjob ls s
  | .query => Sys2Proof.Machine.execQuery s
  | .txRaw p => Sys2Proof.Machine.execTxRaw p s
  | .txChecksummed t => Sys2Proof.Machine.execTxChecksummed t s
  | .gNotice raw => Sys2Proof.Machine.execGNotice raw s
  | .gStatus raw => Sys2Proof.Machine.execGStatus raw s
  | .gOk => Sys2Proof.Machine.execGOk s
  | .gOther raw => Sys2Proof.Machine.execGOther raw s
  | .tCkerr => Sys2Proof.Machine.execTCkerr s
  | .tError raw => Sys2Proof.Machine.execTError raw s
  | .tInfo raw => Sys2Proof.Machine.execTInfo raw s
  | .tOk => Sys2Proof.Machine.execTOk s
  | .tOther raw => Sys2Proof.Machine.execTOther raw s
  | .mInfo raw => Sys2Proof.Machine.execMInfo raw s
  | .mOk => Sys2Proof.Machine.execMOk s
  | .mOther raw => Sys2Proof.Machine.execMOther raw s
  | .cplOk p => Sys2Proof.Machine.execCplOk p s
  | .cplSuppressed => Sys2Proof.Machine.execCplSuppressed s
  | .cplSkipped => Sys2Proof.Machine.execCplSkipped s
  | .cplNone => Sys2Proof.Machine.execCplNone s
  | .cplBadline => Sys2Proof.Machine.execCplBadline s
  | .cplEmpty => Sys2Proof.Machine.execCplEmpty s
  | .cplCancelled => Sys2Proof.Machine.execCplCancelled s
  | .cplRejected r => Sys2Proof.Machine.execCplRejected r s
  | .cplFatal e t => Sys2Proof.Machine.execCplFatal e t s
  | .errGrblBadAck t => Sys2Proof.Machine.execErrGrblBadAck t s
  | .errGrblStatusParse t => Sys2Proof.Machine.execErrGrblStatusParse t s
  | .errTrinusDeviceError t => Sys2Proof.Machine.execErrTrinusDeviceError t s
  | .errRxOverrun => Sys2Proof.Machine.execErrRxOverrun s

end Sys2Proof.Machine
end

