-- ==== Sys2Proof/Machine/Sequencer.lean ====
section
/-!
DEFINITION. The sequencer's next move and the environment's events (00_scope.md R7, 60_exceptions.md R243): what `step` calls.
-/

namespace Sys2Proof.Machine

/-! ## The sequencer -/

/-- `ReadLine()` waits with no complete line in RXBUF: bytes held back for want of room arrive now, else nothing happens (R56,
R104). -/
def admitHeld (s : State) : State :=
  if s.carrier.isEmpty then s else s.deviceSends []

/-- `ReadLine()` (R104): a complete line is taken from the head of RXBUF and its class instruction is executed; with none, the
read waits. -/
def readStep (s : State) : Host.Outcome State Fault Refusal :=
  match splitLine s.term s.rxbuf with
  | some (raw, rest) =>
    exec (classify s.variant raw) ({ s with rxbuf := rest }.logged .rx (.ofRaw raw))
  | none => .next (admitHeld s)

/-- The next move inside an executing operation. -/
def busyStep (op : Op) (c : Ctl) (s : State) : Host.Outcome State Fault Refusal :=
  match c with
  | .top l => .next (cancelPoint s (s.goto op (.read l)))
  | .sleepTop k => .next (cancelPoint s (s.goto op (.sleep k)))
  | .read _ | .pgmEnd _ | .rdline => readStep s
  | .start | .sleep _ => .next s

/-- The completions after which a SENDJOB goes on (R63). -/
def jobGoesOn : Option Completion → Bool
  | some (.ok _) | some .suppressed | some .skipped => true
  | _ => false

/-- The next line of a SENDJOB (R63): fed if the last completion lets the job go on, else the job ends. -/
def nextOfJob (l : Line) (rest : List Line) (s : State) : Host.Outcome State Fault Refusal :=
  if jobGoesOn s.completion then exec (.feed l) { s with job := rest } else .next { s with job := [] }

/-- The next move while no operation executes: a job under way, else what stands on the port is fetched, decoded and executed,
else the block waits (R261; log 6, log 13). -/
def idleStep (s : State) : Host.Outcome State Fault Refusal :=
  match s.job, s.port with
  | l :: rest, _ => nextOfJob l rest s
  | [], p :: ps => exec p.decode { s with port := ps }
  | [], [] => .next s

/-- The sequencer's move. -/
def sequencerMove (s : State) : Host.Outcome State Fault Refusal :=
  match s.ph with
  | .busy op c => busyStep op c s
  | .closed | .ready | .faulted => idleStep s

/-! ## The environment -/

/-- The read time-out event (R105; log 13): enabled only while a `ReadLine()` waits with no complete line; elsewhere nothing happens. -/
def timeoutEvent (s : State) : State :=
  match s.ph with
  | .busy op c => if c.reads && !hasLine s.term s.rxbuf then timedOut op c s else s
  | .closed | .ready | .faulted => s

/-- The poll-interval event (R182): enabled only in `Sleep()`; the next poll begins (R181). -/
def pollEvent (s : State) : State :=
  match s.ph with
  | .busy op (.sleep k) => startStatus op k s
  | _ => s

/-- Reset (R260): every piece of the block's state at its reset value; the build parameters, the host and the schedule are not
the block's (DESIGN CHOICE, log 19). -/
def resetEvent (s : State) : State :=
  { State.resetWith s.par with port := s.port, inputs := s.inputs }

/-- One entry of the schedule. -/
def environment (e : Input) (s : State) : Host.Outcome State Fault Refusal :=
  match e with
  | .tick => sequencerMove s
  | .rx d => .next (s.deviceSends d)
  | .timeout => .next (timeoutEvent s)
  | .poll => .next (pollEvent s)
  | .cancel => .next s.setCancel
  | .present p => .next { s with port := s.port ++ [p] }
  | .reset => .next (resetEvent s)

/-! ## Placing an instruction -/

/-- The phase in which the port is ready, for a state that is to fetch at once. -/
def Phase.idle : Phase → Phase
  | .busy _ _ => .ready
  | p => p

/-- The state with one operation on the port, and nothing that would move before it. -/
def State.withPort (s : State) (ps : List PortOp) : State :=
  { s with port := ps, job := [], inputs := [], ph := s.ph.idle }

end Sys2Proof.Machine
end

