-- ==== Sys2Proof/Machine/Step.lean ====
section
/-!
DEFINITION. One step: the schedule's next entry, or the sequencer's move when the schedule is empty.
-/

namespace Sys2Proof.Machine

/-- One step of the machine. -/
def step (s : State) : Host.Outcome State Fault Refusal :=
  match s.inputs with
  | [] => sequencerMove s
  | e :: es => environment e { s with inputs := es }

/-- `s` with the instruction of a table word on the host port, where the next step fetches (log 17). -/
def State.withFetchWord (s : State) (nbits w : Nat) : State := s.withPort (portOfWord nbits w)

end Sys2Proof.Machine
end

