-- ==== Sys2Proof/Safety.lean ====
section
/-!
DEFINITION. What counts as a safe state and a safe step, in the terms the statements use: the invariant of the machine
(10_state.md R14, R15, R17, R18, R22, R24 to R26; 60_exceptions.md R236, R239) and its parts,
what the host presents to a step (R27, R63, R140), and the rows of R66's table.
-/

namespace Sys2Proof

/-- One well-formed UTF-8 sequence, as the rows of R66's table give it. -/
def Utf8Sequence (q : Line) : Prop :=
  (∃ a, q = [a] ∧ a.toNat ≤ 0x7F) ∨
  (∃ a b, q = [a, b] ∧ (0xC2 ≤ a.toNat ∧ a.toNat ≤ 0xDF) ∧ 0x80 ≤ b.toNat ∧ b.toNat ≤ 0xBF) ∨
  (∃ a b c, q = [a, b, c] ∧ (0x80 ≤ c.toNat ∧ c.toNat ≤ 0xBF) ∧
    ((a.toNat = 0xE0 ∧ 0xA0 ≤ b.toNat ∧ b.toNat ≤ 0xBF) ∨
     (((0xE1 ≤ a.toNat ∧ a.toNat ≤ 0xEC) ∨ (0xEE ≤ a.toNat ∧ a.toNat ≤ 0xEF)) ∧ 0x80 ≤ b.toNat ∧ b.toNat ≤ 0xBF) ∨
     (a.toNat = 0xED ∧ 0x80 ≤ b.toNat ∧ b.toNat ≤ 0x9F))) ∨
  (∃ a b c d, q = [a, b, c, d] ∧ (0x80 ≤ c.toNat ∧ c.toNat ≤ 0xBF) ∧ (0x80 ≤ d.toNat ∧ d.toNat ≤ 0xBF) ∧
    ((a.toNat = 0xF0 ∧ 0x90 ≤ b.toNat ∧ b.toNat ≤ 0xBF) ∨
     ((0xF1 ≤ a.toNat ∧ a.toNat ≤ 0xF3) ∧ 0x80 ≤ b.toNat ∧ b.toNat ≤ 0xBF) ∨
     (a.toNat = 0xF4 ∧ 0x80 ≤ b.toNat ∧ b.toNat ≤ 0x8F)))

end Sys2Proof

namespace Sys2Proof.Machine

/-- The session exists: `PH` is READY or BUSY. -/
def Phase.live : Phase → Bool
  | .ready | .busy _ _ => true
  | .closed | .faulted => false

/-- The operations that send a command line. -/
def Op.sendsLine : Op → Bool
  | .queue | .feed => true
  | _ => false

/-- The uses of a status acquisition that an operation has on a variant (R176, R183, R184). -/
def AcqUse.fits (v : Variant) (op : Op) : AcqUse → Bool
  | .status => v.isGrbl && op == .status
  | .waitst _ => v.isGrbl && op == .waitst
  | .gate l => v.isGrbl && op.sendsLine && l != queryLine

/-- The loops that an operation runs on a variant (R142, R145, R176, R183). -/
def Loop.fits (v : Variant) (op : Op) : Loop → Bool
  | .drain => op == .openOp
  | .acq k => k.fits v op
  | .ack _ => v.isGrbl && op.sendsLine
  | .recvTrinus => v == .trinus && op.sendsLine
  | .recvMarlin => v == .marlin && op.sendsLine

/-- The positions an executing operation can rest at on a variant. -/
def Ctl.fits (v : Variant) (op : Op) : Ctl → Bool
  | .start => false
  | .top l => l.fits v op
  | .read l => l.fits v op
  | .pgmEnd n => v.isGrbl && op.sendsLine && decide (1 ≤ n) && decide (n ≤ 4)
  | .rdline => op == .rdline
  | .sleepTop k => k.fits v op && k != .status
  | .sleep k => k.fits v op && k != .status

/-- The loop waits for a terminal acknowledgment. -/
def Loop.awaitsAck : Loop → Bool
  | .ack _ | .recvTrinus | .recvMarlin => true
  | .drain | .acq _ => false

/-- A command line was transmitted and its terminal acknowledgment is awaited (R18). -/
def Ctl.awaitsAck : Ctl → Bool
  | .top l => l.awaitsAck
  | .read l => l.awaitsAck
  | .start | .pgmEnd _ | .rdline | .sleepTop _ | .sleep _ => false

/-- The invariant of the machine. -/
structure State.Inv (s : State) : Prop where
  /-- `LINK = 1` whenever `PH = READY`, `LINK = 0` whenever `PH` is CLOSED or FAULTED (R14); 1 while an operation rests. -/
  link_live : s.link = s.ph.live
  /-- The position belongs to the operation and to the variant (R13, R151). -/
  position : ∀ op c, s.ph = .busy op c → c.fits s.variant op = true
  /-- A line whose acknowledgment is awaited is in flight (R18). -/
  awaited : ∀ op c, s.ph = .busy op c → c.awaitsAck = true → s.inflight = true
  /-- In FAULTED an error is recorded and no line is in flight (R26, R236). -/
  faulted : s.ph = .faulted → s.errCode ≠ 0 ∧ s.inflight = false
  /-- A live session has taken no fatal error (R35, R239). -/
  no_error : s.ph.live = true → s.errCode = 0
  /-- Error codes 5 to 15 are never produced (R86, R230). -/
  err_code : s.errCode.toNat ≤ 4
  /-- `RESEND` is set on TRINUS only (R11, R19). -/
  resend : s.ph.live = true → s.resend = true → s.variant = .trinus
  /-- RXBUF holds at most `RX_LINE_MAX` bytes (R15). -/
  rx_cap : ∀ m, s.par.rxLineMax = some m → s.rxbuf.length ≤ m
  /-- Bytes are held back only behind a finite RXBUF and an open link (R55, R56). -/
  held : s.carrier ≠ [] → s.link = true ∧ s.par.rxLineMax ≠ none
  /-- NOTICEQ holds at most `NQ_MAX` lines (R24). -/
  nq_cap : ∀ m, s.par.nqMax = some m → s.noticeq.length ≤ m
  /-- `NOVF` is never set while `NQ_MAX` is unbounded (R25). -/
  novf : s.novf = true → s.par.nqMax ≠ none
  /-- The buffer numbers have at most nine digits (R22). -/
  numbers : s.stValid = true → s.st.cmdbuf.toNat ≤ 999999999 ∧ s.st.rxbuf.toNat ≤ 999999999
  /-- `CUR` holds at most `CMD_LINE_MAX + 5` bytes (R17). -/
  cur_cap : ∀ m, s.par.cmdLineMax = some m → s.cur.length ≤ m + 5

/-- The report registers hidden while they may not be read (R21: "must not read them while `ST.VALID = 0`"). -/
def State.hideUnread (s : State) : State := if s.stValid then s else { s with st := StatusReport.atReset }

/-- The schedule's next entry is a reset. -/
def State.resetNext (s : State) : Bool := s.inputs.head? == some .reset

/-- The operation of a phase renamed, its position kept: QUEUE's body run under the name FEED (R148). -/
def Phase.asFeed : Phase → Phase
  | .busy .queue c => .busy .feed c
  | p => p

/-! ## What the host has offered -/

/-- It is the sequencer's turn: the schedule's next entry is no event (R7; log 4). -/
def State.turn (s : State) : Bool :=
  match s.inputs.head? with
  | none => true
  | some e => e == .tick

/-- What the sequencer takes up next while no operation executes: the next line of a job that goes on (R63), else what stands on
the port (R27; log 6). -/
def State.offered (s : State) : Option Instr :=
  if s.ph.isBusy then none
  else
    match s.job with
    | l :: _ => if jobGoesOn s.completion then some (.feed l) else none
    | [] => s.port.head?.map PortOp.decode

/-- The instruction the host presents to the next step (R140), if any. -/
def State.presented (s : State) : Option Instr := if s.turn then s.offered else none

/-- The operation that is presented by an instruction a host may write (R60, R63). -/
def hostOp : Instr → Option Op
  | .setvar _ => some .setvar
  | .openOp _ => some .openOp
  | .close => some .close
  | .queue _ => some .queue
  | .feed _ => some .feed
  | .status => some .status
  | .waitst _ => some .waitst
  | .npop => some .npop
  | .topen => some .topen
  | .rdline => some .rdline
  | .wrline _ => some .wrline
  | .waitidle => some .waitst
  | .sendjob (_ :: _) => some .feed
  | .query => some .status
  | _ => none

/-- The command line of a QUEUE or FEED, a SENDJOB's first included. -/
def commandLine : Instr → Option Line
  | .queue l => some l
  | .feed l => some l
  | .sendjob (l :: _) => some l
  | _ => none

/-- The operand check of R140 (4): R146 for a command line, R112 for WRLINE. -/
def operandOk (s : State) (i : Instr) : Bool :=
  match i with
  | .wrline t => wrlineOk s.par s.term t
  | i =>
    match commandLine i with
    | some l => commandOk s.par l
    | none => true

/-- The instruction presents an operation that passes all checks of R140. -/
def State.accepts (s : State) (i : Instr) : Bool :=
  match hostOp i with
  | none => false
  | some op => op.admits s.ph && op.variantOk s.variant && operandOk s i

end Sys2Proof.Machine
end

