-- ==== Sys2Proof/Certificates/Slice0/Obligations.lean ====
section
/-!
DEFINITION. The statements for the provers, one `def Obligations.<Name> : Prop` each; OBLIGATIONS.json lists them. A next state is
given as a whole state (`{ s with … }`), so each statement of a result is its frame too: every field not named is unchanged.
-/

open Sys2Proof Sys2Proof.Machine

/-! ## Step, decode, encode -/

/-- R27, R140: while no operation executes, what stands on the port is fetched and decodes to a well-formed instruction, and the
step is its `exec`; with nothing to do the block waits (R261). The schedule and the queue behind the port are the model's
(log 4, log 6). -/
def Obligations.StepRunsThePresentedInstruction : Prop :=
  ∀ s : State, s.ph.isBusy = false → s.job = [] →
    (∀ p ps, s.port = p :: ps →
      (∀ v, p.decode.wf v = true) ∧
      (s.inputs = [] → step s = exec p.decode { s with port := ps }) ∧
      (∀ es, s.inputs = .tick :: es → step s = exec p.decode { s with port := ps, inputs := es })) ∧
    (s.port = [] → s.inputs = [] → step s = .next s)

/-- R71, R104: while a `ReadLine()` waits and RXBUF holds a complete line, the line and its terminator leave RXBUF, the reading is
logged, and the step is the `exec` of the line's class under the variant. -/
def Obligations.StepRunsTheClassOfTheLineRead : Prop :=
  ∀ (s : State) (op : Op) (c : Ctl) (raw rest : Line),
    s.ph = .busy op c → c.reads = true → s.inputs = [] → splitLine s.variant.term.bytes s.rxbuf = some (raw, rest) →
    step s = exec (classify s.variant raw)
      { s with rxbuf := rest, log := s.log ++ [⟨.rx, if isText raw then .line raw else .bad⟩] }

/-- Words written out from the spec's encodings (R60, R62, R68, R74, R75, R230; 95_test_vectors.md section 3) decode to what they
stand for. -/
def Obligations.WrittenWordsDecode : Prop :=
  decode (.hostop [0x01, 0x02]) = .ok (.setvar .trinus) ∧
  decode (.hostop [0x04, 0x47, 0x30, 0x20, 0x58, 0x31]) = .ok (.queue [0x47, 0x30, 0x20, 0x58, 0x31]) ∧
  decode (.hostop [0x07, 0x02]) = .ok (.waitst .idle) ∧
  decode (.hostop [0xFF]) = .ok (.unassigned 0xFF) ∧
  decode (.txline .trinus [0x47, 0x30, 0x20, 0x58, 0x31, 0x20, 0x2A, 0x33, 0x30, 0x0A])
    = .ok (.txChecksummed [0x47, 0x30, 0x20, 0x58, 0x31]) ∧
  decode (.rxline .grbl11 [0x6F, 0x6B, 0x0D, 0x0A]) = .ok .gOk ∧
  decode (.rxline .trinus [0x5B, 0x45, 0x52, 0x52, 0x4F, 0x52, 0x5D, 0x20, 0x69, 0x6E, 0x76, 0x61, 0x6C, 0x69, 0x64, 0x20,
    0x63, 0x68, 0x65, 0x63, 0x6B, 0x73, 0x75, 0x6D, 0x0A]) = .ok .tCkerr ∧
  decode (.rxline .marlin [0x65, 0x63, 0x68, 0x6F, 0x3A, 0x0A]) = .ok (.mInfo [0x65, 0x63, 0x68, 0x6F, 0x3A]) ∧
  decode (.completion 7 (.reason .badArg)) = .ok (.cplRejected .badArg) ∧
  decode (.errcode 4 (.line [])) = .ok .errRxOverrun

/-- Decode and encode agree on every well-formed instruction of every row but TX_RAW, whose bytes do not tell whether a suffix was
already in the line (log 15). -/
def Obligations.DecodeOfEncodeIsTheInstruction : Prop :=
  ∀ (v : Variant) (i : Instr), i.wf v = true → (∀ p, i ≠ .txRaw p) → decode (encode v i) = .ok i

/-- Every framed line decodes and nothing else does (R71, R84); its class is well-formed and encodes back to the same bytes. A line
is text exactly when it is a concatenation of sequences of R66's table, and the condition for each class is that of R72 to R75,
tested in their order; a line that is no text has the last class. -/
def Obligations.ReceivedLineDecodingIsFaithful : Prop :=
  (∀ t : Line, isText t = true ↔ ∃ qs : List Line, t = qs.flatten ∧ ∀ q ∈ qs, Utf8Sequence q) ∧
  ∀ v : Variant,
    (∀ b i, decode (.rxline v b) = .ok i → i.wf v = true ∧ encode v i = .rxline v b) ∧
    (∀ b, (∃ i, decode (.rxline v b) = .ok i) ↔ ∃ raw, hasLine v.term.bytes raw = false ∧ b = raw ++ v.term.bytes) ∧
    ∀ raw d, hasLine v.term.bytes raw = false → d = decode (.rxline v (raw ++ v.term.bytes)) →
      (v = .grbl09 ∨ v = .grbl11 →
        (d = .ok (.gNotice raw) ↔ isText raw = true ∧ ∃ m, raw = [0x5B] ++ m ++ [0x5D]) ∧
        (d = .ok (.gStatus raw) ↔ isText raw = true ∧ ∃ m, raw = [0x3C] ++ m ++ [0x3E]) ∧
        (d = .ok .gOk ↔ raw = [0x6F, 0x6B]) ∧
        (d = .ok (.gOther raw) ↔ isText raw = false ∨
          ((∀ m, raw ≠ [0x5B] ++ m ++ [0x5D]) ∧ (∀ m, raw ≠ [0x3C] ++ m ++ [0x3E]) ∧ raw ≠ [0x6F, 0x6B]))) ∧
      (v = .trinus →
        (d = .ok .tCkerr ↔ raw = ascii "[ERROR] invalid checksum") ∧
        (d = .ok (.tError raw) ↔
          isText raw = true ∧ raw ≠ ascii "[ERROR] invalid checksum" ∧ ∃ m, raw = ascii "[ERROR]" ++ m) ∧
        (d = .ok (.tInfo raw) ↔ isText raw = true ∧ ∃ m, raw = ascii "[ECHO]" ++ m ∨ raw = ascii "[VALUE]" ++ m) ∧
        (d = .ok .tOk ↔ raw = [0x6F, 0x6B]) ∧
        (d = .ok (.tOther raw) ↔ isText raw = false ∨
          ((∀ m, raw ≠ ascii "[ERROR]" ++ m ∧ raw ≠ ascii "[ECHO]" ++ m ∧ raw ≠ ascii "[VALUE]" ++ m) ∧ raw ≠ [0x6F, 0x6B]))) ∧
      (v = .marlin →
        (d = .ok (.mInfo raw) ↔ isText raw = true ∧ ∃ m, raw = ascii "echo:" ++ m) ∧
        (d = .ok .mOk ↔ raw = [0x6F, 0x6B]) ∧
        (d = .ok (.mOther raw) ↔ isText raw = false ∨ ((∀ m, raw ≠ ascii "echo:" ++ m) ∧ raw ≠ [0x6F, 0x6B])))

/-- Every payload without `TERM`, with `TERM` behind it, decodes, and nothing else does; no byte is lost (R64). The kind is
CHECKSUMMED (R67) on TRINUS and MARLIN when the payload is the checksummed form of a stripped text with no star and no prefix
`M117`, and else RAW; that a RAW line which already held a correct suffix reads as CHECKSUMMED is the model's reading (log 15). -/
def Obligations.TransmittedLineDecodingKeepsTheBytes : Prop :=
  ∀ v : Variant,
    (∀ b i, decode (.txline v b) = .ok i → i.wf v = true ∧ encode v i = .txline v b) ∧
    (∀ b, (∃ i, decode (.txline v b) = .ok i) ↔ ∃ p, hasLine v.term.bytes p = false ∧ b = p ++ v.term.bytes) ∧
    ∀ p, hasLine v.term.bytes p = false →
      (∀ t, v = .trinus ∨ v = .marlin → p = t ++ [0x20, 0x2A] ++ dec (CK t).toNat →
        strip t = t → (0x2A : Byte) ∉ t → ¬ [0x4D, 0x31, 0x31, 0x37] <+: t →
        decode (.txline v (p ++ v.term.bytes)) = .ok (.txChecksummed t)) ∧
      (v = .grbl09 ∨ v = .grbl11 ∨ (∀ t, p = t ++ [0x20, 0x2A] ++ dec (CK t).toNat →
          strip t ≠ t ∨ (0x2A : Byte) ∈ t ∨ [0x4D, 0x31, 0x31, 0x37] <+: t) →
        decode (.txline v (p ++ v.term.bytes)) = .ok (.txRaw p))

/-! ## Refusals at the boundary -/

/-- R82: unassigned op codes complete at once with REJECTED / BADOP and change no state. -/
def Obligations.UnassignedCodesAreRejected : Prop :=
  ∀ (code : Byte) (s : State), isUnassigned code = true → s.ph.isBusy = false →
    decode (.hostop [code]) = .ok (.unassigned code) ∧
    exec (.unassigned code) s = .next { s with completion := some (.rejected .badOp) }

/-- R83, with the table of R140: an assigned operation in a phase or under a variant that does not admit it is REJECTED, the phase
first, and nothing else changes. -/
def Obligations.WrongPhaseOrVariantIsRejected : Prop :=
  ∀ s : State,
    (s.ph = .ready ∨ s.ph = .faulted →
      ∀ i, (i = .topen ∨ (∃ v, i = .setvar v) ∨ ∃ b, i = .openOp b) →
        exec i s = .next { s with completion := some (.rejected .badPhase) }) ∧
    (s.ph = .closed ∨ s.ph = .faulted →
      ∀ i, (i = .status ∨ i = .query ∨ i = .waitidle ∨ i = .rdline ∨ (∃ p, i = .waitst p) ∨ (∃ l, i = .queue l)
          ∨ (∃ l, i = .feed l) ∨ ∃ t, i = .wrline t) →
        exec i s = .next { s with completion := some (.rejected .badPhase) }) ∧
    (s.ph = .ready → s.variant = .trinus ∨ s.variant = .marlin →
      ∀ i, (i = .status ∨ i = .query ∨ i = .waitidle ∨ ∃ p, i = .waitst p) →
        exec i s = .next { s with completion := some (.rejected .badVariant) })

/-- R146: a line that is longer than `CMD_LINE_MAX` or holds a byte outside `20..7E` is REJECTED / BADARG by QUEUE and FEED; nothing
is transmitted and no state changes. -/
def Obligations.BadCommandLineIsRejected : Prop :=
  ∀ (l : Line) (s : State), s.ph = .ready →
    ((∃ m, s.par.cmdLineMax = some m ∧ m < l.length) ∨ ∃ b ∈ l, b.toNat < 0x20 ∨ 0x7E < b.toNat) →
    exec (.queue l) s = .next { s with completion := some (.rejected .badArg) } ∧
    exec (.feed l) s = .next { s with completion := some (.rejected .badArg) }

/-! ## Host operations -/

/-- R141: in CLOSED, SETVAR writes the variant, the terminator follows it, it completes OK; in any other phase that is not busy it
is REJECTED, so variant and terminator never change during a session. -/
def Obligations.SetvarSelectsTheVariant : Prop :=
  ∀ (v : Variant) (s : State),
    (s.ph = .closed →
      exec (.setvar v) s = .next { s with variant := v, cancel := false, completion := some (.ok .nothing), ph := .closed } ∧
      (v = .grbl09 ∨ v = .grbl11 → v.term.bytes = [0x0D, 0x0A]) ∧ (v = .trinus ∨ v = .marlin → v.term.bytes = [0x0A])) ∧
    (s.ph = .ready ∨ s.ph = .faulted → exec (.setvar v) s = .next { s with completion := some (.rejected .badPhase) })

/-- R142: in CLOSED, OPEN (whatever its operand) re-initialises the session, brings the link up with nothing buffered, sends two
empty lines raw, and reaches the cancel point of its drain. The model's choices: the bytes held back are lost (log 8), no record
stands while the operation runs (log 7), and the report registers but ST.VALID stay (log 20, R35 against R142). -/
def Obligations.OpenFlushesAndStartsTheDrain : Prop :=
  ∀ (i : Bool) (s : State), s.ph = .closed →
    exec (.openOp i) s = .next { s with
      rxbuf := [], carrier := [], cur := [], inflight := false, resend := false, stValid := false, stCapt := false,
      noticeq := [], novf := false, errCode := 0, errText := .line [], cancel := false, link := true, completion := none,
      txout := s.txout ++ s.variant.term.bytes ++ s.variant.term.bytes,
      log := s.log ++ [⟨.tx, .line []⟩] ++ [⟨.tx, .line []⟩],
      ph := .busy .openOp (.top .drain) }

/-- R143: in the drain every line is discarded unclassified (nothing queued, stored, parsed or fatal), and only a time-out ends
it. -/
def Obligations.DrainDiscardsEveryLine : Prop :=
  ∀ (s : State), s.ph = .busy .openOp (.read .drain) →
    (∀ raw rest, s.inputs = [] → splitLine s.variant.term.bytes s.rxbuf = some (raw, rest) →
      step s = .next { s with
        rxbuf := rest, log := s.log ++ [⟨.rx, .ofRaw raw⟩] ++ [⟨.discarded, .ofRaw raw⟩],
        ph := .busy .openOp (.top .drain) }) ∧
    (∀ es, s.inputs = .timeout :: es → hasLine s.variant.term.bytes s.rxbuf = false →
      step s = .next { s with inputs := es, completion := some (.ok .nothing), ph := .ready }) ∧
    (∀ es, s.inputs = .timeout :: es → hasLine s.variant.term.bytes s.rxbuf = true → step s = .next { s with inputs := es })

/-- R110: TOPEN in CLOSED re-initialises the session state and brings the link up, transmits nothing, completes OK, READY. The
model's choices: the bytes held back are lost (log 8) and the report registers but ST.VALID stay (log 20, R35 against R142). -/
def Obligations.TopenOpensTheLinkOnly : Prop :=
  ∀ s : State, s.ph = .closed →
    exec .topen s = .next { s with
      rxbuf := [], carrier := [], cur := [], inflight := false, resend := false, stValid := false, stCapt := false,
      noticeq := [], novf := false, errCode := 0, errText := .line [], cancel := false, link := true,
      completion := some (.ok .nothing), ph := .ready }

/-- R144: CLOSE in any phase that is not busy releases the link, transmits nothing, keeps ERR.* and NOTICEQ, and goes to
CLOSED. That the bytes held back are lost with the link is the model's choice (log 8). -/
def Obligations.CloseReleasesTheLink : Prop :=
  ∀ s : State, s.ph.isBusy = false →
    exec .close s = .next { s with
      link := false, carrier := if s.link then [] else s.carrier, cancel := false, completion := some (.ok .nothing),
      ph := .closed }

/-- R149: NPOP removes and returns the oldest notice, or completes EMPTY; the phase is the one it had. -/
def Obligations.NpopRemovesTheOldestNotice : Prop :=
  ∀ s : State, s.ph.isBusy = false →
    (s.noticeq = [] → exec .npop s = .next { s with cancel := false, completion := some .empty }) ∧
    (∀ t rest, s.noticeq = t :: rest →
      exec .npop s = .next { s with cancel := false, noticeq := rest, completion := some (.ok (.text t)) })

/-- R111: RDLINE in READY waits in one `ReadLine()`; a text completes OK with it, an undecodable line BADLINE, a time-out NONE with
RXBUF unchanged; then READY. That no record stands from acceptance on is the model's choice (log 7). -/
def Obligations.RdlineReadsOneLine : Prop :=
  ∀ s : State,
    (s.ph = .ready →
      exec .rdline s = .next { s with cancel := false, completion := none, ph := .busy .rdline .rdline }) ∧
    (s.ph = .busy .rdline .rdline →
      (∀ raw rest, s.inputs = [] → splitLine s.variant.term.bytes s.rxbuf = some (raw, rest) →
        (isText raw = true →
          step s = .next { s with
            rxbuf := rest, log := s.log ++ [⟨.rx, .line raw⟩], completion := some (.ok (.text raw)), ph := .ready }) ∧
        (isText raw = false →
          step s = .next { s with
            rxbuf := rest, log := s.log ++ [⟨.rx, .bad⟩], completion := some .badline, ph := .ready })) ∧
      (∀ es, s.inputs = .timeout :: es → hasLine s.variant.term.bytes s.rxbuf = false →
        step s = .next { s with inputs := es, completion := some .none, ph := .ready }))

/-- R112: WRLINE in READY refuses a text that holds `TERM` or is too long, and else transmits it as it is, with no transform, no
wait, and INFLIGHT untouched. -/
def Obligations.WrlineTransmitsAsGiven : Prop :=
  ∀ (t : Line) (s : State), s.ph = .ready →
    (hasLine s.variant.term.bytes t = true ∨ (∃ m, s.par.cmdLineMax = some m ∧ m < t.length) →
      exec (.wrline t) s = .next { s with completion := some (.rejected .badArg) }) ∧
    (hasLine s.variant.term.bytes t = false → (∀ m, s.par.cmdLineMax = some m → t.length ≤ m) →
      exec (.wrline t) s = .next { s with
        txout := s.txout ++ t ++ s.variant.term.bytes, log := s.log ++ [⟨.tx, .line t⟩], cancel := false,
        completion := some (.ok .nothing), ph := .ready })

/-- R184, R187, R188 (a): QUEUE of any line but `?` on a Grbl variant first sends a status query, and the line itself is not sent
yet; QUEUE of `?` skips the gate: `?` is transmitted, in flight, and the acknowledgment loop runs. That no record stands from
acceptance on is the model's choice (log 7). -/
def Obligations.QueueOnGrblPollsFirst : Prop :=
  ∀ (l : Line) (s : State), s.ph = .ready → s.variant = .grbl09 ∨ s.variant = .grbl11 → commandOk s.par l = true →
    (l ≠ [0x3F] →
      exec (.queue l) s = .next { s with
        cancel := false, completion := none, stCapt := false, txout := s.txout ++ [0x3F] ++ [0x0D, 0x0A],
        log := s.log ++ [⟨.tx, .line [0x3F]⟩], ph := .busy .queue (.top (.acq (.gate l))) }) ∧
    (l = [0x3F] →
      exec (.queue l) s = .next { s with
        cancel := false, completion := none, inflight := true, txout := s.txout ++ [0x3F] ++ [0x0D, 0x0A],
        log := s.log ++ [⟨.tx, .line [0x3F]⟩], ph := .busy .queue (.top (.ack [0x3F])) })

/-- R201: QUEUE on TRINUS: a suppressed line completes at once with nothing sent, read or latched; any other is latched in CUR,
transmitted once with RESEND cleared, and in flight. That no record stands from acceptance on is the model's choice (log 7). -/
def Obligations.QueueOnTrinusTransmitsTheTransformedLine : Prop :=
  ∀ (l : Line) (s : State), s.ph = .ready → s.variant = .trinus → commandOk s.par l = true →
    (shorten s.par l = .suppress →
      exec (.queue l) s = .next { s with cancel := false, completion := some .suppressed, ph := .ready }) ∧
    (∀ u, shorten s.par l = .send u →
      exec (.queue l) s = .next { s with
        cancel := false, completion := none, cur := u, resend := false, inflight := true,
        txout := s.txout ++ u ++ [0x0A], log := s.log ++ [⟨.tx, .line u⟩], ph := .busy .queue (.top .recvTrinus) })

/-- R216: QUEUE on MARLIN: a suppressed line completes at once; any other is latched in CUR, transmitted, and in flight; RESEND is
not written. That no record stands from acceptance on is the model's choice (log 7). -/
def Obligations.QueueOnMarlinTransmitsTheTransformedLine : Prop :=
  ∀ (l : Line) (s : State), s.ph = .ready → s.variant = .marlin → commandOk s.par l = true →
    (shorten s.par l = .suppress →
      exec (.queue l) s = .next { s with cancel := false, completion := some .suppressed, ph := .ready }) ∧
    (∀ u, shorten s.par l = .send u →
      exec (.queue l) s = .next { s with
        cancel := false, completion := none, cur := u, inflight := true,
        txout := s.txout ++ u ++ [0x0A], log := s.log ++ [⟨.tx, .line u⟩], ph := .busy .queue (.top .recvMarlin) })

/-- R148, R133: FEED of an acceptable line completes SKIPPED with nothing transmitted when the line is blank or starts with `%` or
`(`, and else answers what QUEUE of that line answers, under its own name. -/
def Obligations.FeedSkipsOrQueues : Prop :=
  ∀ (l : Line) (s : State), s.ph = .ready → commandOk s.par l = true →
    ((∀ b ∈ l, b = 0x20) ∨ l.head? = some 0x25 ∨ l.head? = some 0x28 →
      exec (.feed l) s = .next { s with cancel := false, completion := some .skipped, ph := .ready }) ∧
    (¬ ((∀ b ∈ l, b = 0x20) ∨ l.head? = some 0x25 ∨ l.head? = some 0x28) →
      ∃ t, exec (.queue l) s = .next t ∧ exec (.feed l) s = .next { t with ph := t.ph.asFeed })

/-- R175, R176, R181, R183: STATUS, WAITST and their abbreviations QUERY and WAITIDLE (R63), in READY on a Grbl variant, send one
raw query, clear ST.CAPT and reach the cancel point of the acquisition; INFLIGHT is not set. That no record
stands from acceptance on is the model's choice (log 7). -/
def Obligations.StatusAndWaitstQueryAfresh : Prop :=
  ∀ s : State, s.ph = .ready → s.variant = .grbl09 ∨ s.variant = .grbl11 →
    (∀ i, i = .status ∨ i = .query →
      exec i s = .next { s with
        cancel := false, completion := none, stCapt := false, txout := s.txout ++ [0x3F] ++ [0x0D, 0x0A],
        log := s.log ++ [⟨.tx, .line [0x3F]⟩], ph := .busy .status (.top (.acq .status)) }) ∧
    (∀ i p, i = .waitst p ∨ (i = .waitidle ∧ p = .idle) →
      exec i s = .next { s with
        cancel := false, completion := none, stCapt := false, txout := s.txout ++ [0x3F] ++ [0x0D, 0x0A],
        log := s.log ++ [⟨.tx, .line [0x3F]⟩], ph := .busy .waitst (.top (.acq (.waitst p))) })

/-- R63: SENDJOB feeds its first line and keeps the others; after each completion the next line is fed if that completion is OK,
SUPPRESSED or SKIPPED, and else the job ends. The field that keeps the lines is the model's (log 6). -/
def Obligations.SendjobFeedsLineByLine : Prop :=
  ∀ s : State, s.ph.isBusy = false →
    exec (.sendjob []) s = .next s ∧
    (∀ l rest, ∃ t, exec (.sendjob (l :: rest)) s = .next t ∧ exec (.feed l) { s with job := rest } = .next t) ∧
    (∀ l rest, s.inputs = [] → s.job = l :: rest →
      ((∃ p, s.completion = some (.ok p)) ∨ s.completion = some .suppressed ∨ s.completion = some .skipped →
        step s = exec (.feed l) { s with job := rest }) ∧
      (¬ ((∃ p, s.completion = some (.ok p)) ∨ s.completion = some .suppressed ∨ s.completion = some .skipped) →
        step s = .next { s with job := [] }))

/-! ## Transmitted lines -/

/-- R67, R108: with the link up, a payload without `TERM` goes out whole, followed by `TERM`; TX_CHECKSUMMED sends the text, a
space, a star and the decimal of the XOR of the text's bytes and one space. Outside that domain the model stops by name (log
11). -/
def Obligations.TransmittedLinesGoOutWhole : Prop :=
  ∀ (p : Line) (s : State),
    (s.link = true → hasLine s.variant.term.bytes p = false →
      exec (.txRaw p) s = .next { s with
        txout := s.txout ++ p ++ s.variant.term.bytes, log := s.log ++ [⟨.tx, .line p⟩] }) ∧
    (s.link = true → hasLine s.variant.term.bytes (p ++ [0x20, 0x2A] ++ dec (xorAll p ^^^ 0x20).toNat) = false →
      exec (.txChecksummed p) s = .next { s with
        txout := s.txout ++ (p ++ [0x20, 0x2A] ++ dec (xorAll p ^^^ 0x20).toNat) ++ s.variant.term.bytes,
        log := s.log ++ [⟨.tx, .line (p ++ [0x20, 0x2A] ++ dec (xorAll p ^^^ 0x20).toNat)⟩] }) ∧
    (s.link = false → exec (.txRaw p) s = .fault .txLinkDown ∧ exec (.txChecksummed p) s = .fault .txLinkDown) ∧
    (s.link = true → hasLine s.variant.term.bytes p = true → exec (.txRaw p) s = .fault .txHoldsTerm) ∧
    (s.link = true → hasLine s.variant.term.bytes (p ++ [0x20, 0x2A] ++ dec (xorAll p ^^^ 0x20).toNat) = true →
      exec (.txChecksummed p) s = .fault .txHoldsTerm)

/-! ## Received lines -/

/-- R73, R185, R171: the effect of each Grbl class in the acknowledgment loop. -/
def Obligations.AckLoopFollowsItsTable : Prop :=
  ∀ (op : Op) (l : Line) (s : State), s.ph = .busy op (.read (.ack l)) → op = .queue ∨ op = .feed →
    (∀ raw, s.noticeRoom = true →
      exec (.gNotice raw) s = .next { s with
        noticeq := s.noticeq ++ [raw], log := s.log ++ [⟨.notice, .line raw⟩], ph := .busy op (.top (.ack l)) }) ∧
    (∀ raw, s.noticeRoom = false →
      exec (.gNotice raw) s = .next { s with
        novf := true, log := s.log ++ [⟨.discarded, .line raw⟩], ph := .busy op (.top (.ack l)) }) ∧
    (∀ raw rep, parseStatus s.variant raw = some rep →
      exec (.gStatus raw) s = .next { s with
        stValid := true, st := rep, stCapt := true, log := s.log ++ [⟨.status, .line raw⟩], ph := .busy op (.top (.ack l)) }) ∧
    (∀ raw, parseStatus s.variant raw = none → exec (.gStatus raw) s = .next (s.raise .grblStatusParse (.line raw))) ∧
    (l ∉ s.par.pgmEnd →
      exec .gOk s = .next { s with inflight := false, completion := some (.ok (.text [0x6F, 0x6B])), ph := .ready }) ∧
    (l ∈ s.par.pgmEnd → exec .gOk s = .next { s with inflight := false, ph := .busy op (.pgmEnd 4) }) ∧
    (∀ raw, exec (.gOther raw) s = .next (s.raise .grblBadAck (.ofRaw raw)))

/-- R73, R175, R176, R181, R183, R184: the effect of each Grbl class in status acquisition, and what the acquisition's user does
with the captured report. -/
def Obligations.AcquisitionFollowsItsTable : Prop :=
  ∀ (op : Op) (k : AcqUse) (s : State), s.ph = .busy op (.read (.acq k)) → op ≠ .setvar → op ≠ .close →
    (∀ raw, s.noticeRoom = true →
      exec (.gNotice raw) s = .next { s with
        noticeq := s.noticeq ++ [raw], log := s.log ++ [⟨.notice, .line raw⟩], ph := .busy op (.top (.acq k)) }) ∧
    (∀ raw, s.noticeRoom = false →
      exec (.gNotice raw) s = .next { s with
        novf := true, log := s.log ++ [⟨.discarded, .line raw⟩], ph := .busy op (.top (.acq k)) }) ∧
    (exec .gOk s = .next { s with
        log := s.log ++ [⟨.discarded, .line [0x6F, 0x6B]⟩], ph := .busy op (.top (.acq k)) }) ∧
    (∀ raw, exec (.gOther raw) s = .next { s with
        log := s.log ++ [⟨.discarded, .ofRaw raw⟩], ph := .busy op (.top (.acq k)) }) ∧
    (∀ raw, parseStatus s.variant raw = none → exec (.gStatus raw) s = .next (s.raise .grblStatusParse (.line raw))) ∧
    (∀ raw rep, parseStatus s.variant raw = some rep →
      (k = .status →
        exec (.gStatus raw) s = .next { s with
          stValid := true, st := rep, stCapt := true, log := s.log ++ [⟨.status, .line raw⟩],
          completion := some (.ok (.report rep)), ph := .ready }) ∧
      (∀ p, k = .waitst p → holds p rep = true →
        exec (.gStatus raw) s = .next { s with
          stValid := true, st := rep, stCapt := true, log := s.log ++ [⟨.status, .line raw⟩],
          completion := some (.ok (.report rep)), ph := .ready }) ∧
      (∀ p, k = .waitst p → holds p rep = false →
        exec (.gStatus raw) s = .next { s with
          stValid := true, st := rep, stCapt := true, log := s.log ++ [⟨.status, .line raw⟩],
          ph := .busy op (.sleepTop (.waitst p)) }))

/-- R177, R178, R188 (b) to (d): in the gate, a report that passes the variant's predicate makes the line go out in the same step,
with nothing sent or read in between; any other report leads to the sleep with nothing sent. -/
def Obligations.GateSendsOnlyOnAPassingReport : Prop :=
  ∀ (op : Op) (l raw : Line) (rep : StatusReport) (s : State),
    s.ph = .busy op (.read (.acq (.gate l))) → s.variant = .grbl09 ∨ s.variant = .grbl11 →
    parseStatus s.variant raw = some rep →
    ((s.variant = .grbl09 ∧ rep.cmdbuf.toNat < 10 ∧ rep.rxbuf.toNat < 100) ∨
        (s.variant = .grbl11 ∧ 2 < rep.cmdbuf.toNat ∧ 5 + l.length < rep.rxbuf.toNat) →
      exec (.gStatus raw) s = .next { s with
        stValid := true, st := rep, stCapt := true, inflight := true, txout := s.txout ++ l ++ [0x0D, 0x0A],
        log := s.log ++ [⟨.status, .line raw⟩] ++ [⟨.tx, .line l⟩], ph := .busy op (.top (.ack l)) }) ∧
    (¬ ((s.variant = .grbl09 ∧ rep.cmdbuf.toNat < 10 ∧ rep.rxbuf.toNat < 100) ∨
        (s.variant = .grbl11 ∧ 2 < rep.cmdbuf.toNat ∧ 5 + l.length < rep.rxbuf.toNat)) →
      exec (.gStatus raw) s = .next { s with
        stValid := true, st := rep, stCapt := true, log := s.log ++ [⟨.status, .line raw⟩],
        ph := .busy op (.sleepTop (.gate l)) })

/-- R74, R202, R203: the effect of each Trinus class in the receive loop; `ok` with RESEND set transmits CUR again, byte for
byte. -/
def Obligations.TrinusLoopFollowsItsTable : Prop :=
  ∀ (op : Op) (s : State), s.ph = .busy op (.read .recvTrinus) → s.variant = .trinus → op = .queue ∨ op = .feed →
    (exec .tCkerr s = .next { s with resend := true, ph := .busy op (.top .recvTrinus) }) ∧
    (∀ raw, exec (.tError raw) s = .next (s.raise .trinusDeviceError (.line raw))) ∧
    (∀ raw, s.noticeRoom = true →
      exec (.tInfo raw) s = .next { s with
        noticeq := s.noticeq ++ [raw], log := s.log ++ [⟨.notice, .line raw⟩], ph := .busy op (.top .recvTrinus) }) ∧
    (∀ raw, s.noticeRoom = false →
      exec (.tInfo raw) s = .next { s with
        novf := true, log := s.log ++ [⟨.discarded, .line raw⟩], ph := .busy op (.top .recvTrinus) }) ∧
    (s.resend = true →
      exec .tOk s = .next { s with
        resend := false, inflight := true, txout := s.txout ++ s.cur ++ [0x0A], log := s.log ++ [⟨.tx, .line s.cur⟩],
        ph := .busy op (.top .recvTrinus) }) ∧
    (s.resend = false →
      exec .tOk s = .next { s with inflight := false, completion := some (.ok (.text [0x6F, 0x6B])), ph := .ready }) ∧
    (∀ raw, exec (.tOther raw) s = .next { s with
        log := s.log ++ [⟨.ignored, .ofRaw raw⟩], ph := .busy op (.top .recvTrinus) })

/-- R75, R217: the effect of each Marlin class in the receive loop. -/
def Obligations.MarlinLoopFollowsItsTable : Prop :=
  ∀ (op : Op) (s : State), s.ph = .busy op (.read .recvMarlin) → op = .queue ∨ op = .feed →
    (∀ raw, s.noticeRoom = true →
      exec (.mInfo raw) s = .next { s with
        noticeq := s.noticeq ++ [raw], log := s.log ++ [⟨.notice, .line raw⟩], ph := .busy op (.top .recvMarlin) }) ∧
    (∀ raw, s.noticeRoom = false →
      exec (.mInfo raw) s = .next { s with
        novf := true, log := s.log ++ [⟨.discarded, .line raw⟩], ph := .busy op (.top .recvMarlin) }) ∧
    (exec .mOk s = .next { s with inflight := false, completion := some (.ok (.text [0x6F, 0x6B])), ph := .ready }) ∧
    (∀ raw, exec (.mOther raw) s = .next { s with
        log := s.log ++ [⟨.ignored, .ofRaw raw⟩], ph := .busy op (.top .recvMarlin) })

/-- R186: the program-end reads: each line is discarded unclassified, each time-out counts, and after the fourth the operation
completes OK. -/
def Obligations.ProgramEndReadsAreCounted : Prop :=
  ∀ (op : Op) (n : Nat) (s : State), s.ph = .busy op (.pgmEnd n) → op = .queue ∨ op = .feed →
    (∀ raw rest, s.inputs = [] → splitLine s.variant.term.bytes s.rxbuf = some (raw, rest) →
      (2 ≤ n → step s = .next { s with
        rxbuf := rest, log := s.log ++ [⟨.rx, .ofRaw raw⟩] ++ [⟨.discarded, .ofRaw raw⟩], ph := .busy op (.pgmEnd (n - 1)) }) ∧
      (n = 1 → step s = .next { s with
        rxbuf := rest, log := s.log ++ [⟨.rx, .ofRaw raw⟩] ++ [⟨.discarded, .ofRaw raw⟩],
        completion := some (.ok (.text [0x6F, 0x6B])), ph := .ready })) ∧
    (∀ es, s.inputs = .timeout :: es → hasLine s.variant.term.bytes s.rxbuf = false →
      (2 ≤ n → step s = .next { s with inputs := es, ph := .busy op (.pgmEnd (n - 1)) }) ∧
      (n = 1 → step s = .next { s with
        inputs := es, completion := some (.ok (.text [0x6F, 0x6B])), ph := .ready }))

/-- R32, R270, R55: a line that no read waits for is kept in RXBUF behind what is there; while the link is down it is lost. That a
class row executed outside a read means this is the model's reading (log 10). -/
def Obligations.UnreadLinesAreKept : Prop :=
  ∀ (raw : Line) (s : State), (∀ op c, s.ph = .busy op c → c.reads = false) → s.par.rxLineMax = none → s.carrier = [] →
    ∀ i, i = .gNotice raw ∨ i = .gStatus raw ∨ i = .gOther raw ∨ i = .tError raw ∨ i = .tInfo raw ∨ i = .tOther raw
        ∨ i = .mInfo raw ∨ i = .mOther raw ∨ (raw = ascii "ok" ∧ (i = .gOk ∨ i = .tOk ∨ i = .mOk))
        ∨ (raw = ascii "[ERROR] invalid checksum" ∧ i = .tCkerr) →
      (s.link = true → exec i s = .next { s with rxbuf := s.rxbuf ++ raw ++ s.variant.term.bytes }) ∧
      (s.link = false → exec i s = .next s)

/-! ## Completions and fatal errors -/

/-- R62, R28, R151: producing a completion record ends the executing operation (SETVAR and CLOSE in CLOSED, the others in READY); in
a phase that is not busy only the record changes. CANCELLED consumes the latch (R241). That a completion code is executed as an
instruction at all, in any position and any phase, and that NPOP's record then leads to READY, where R149 keeps the phase it had,
are the model's choices (log 12). -/
def Obligations.CompletionEndsTheOperation : Prop :=
  ∀ (i : Instr) (c : Completion) (s : State),
    ((∃ p, i = .cplOk p ∧ c = .ok p) ∨ (i = .cplSuppressed ∧ c = .suppressed) ∨ (i = .cplSkipped ∧ c = .skipped)
      ∨ (i = .cplNone ∧ c = .none) ∨ (i = .cplBadline ∧ c = .badline) ∨ (i = .cplEmpty ∧ c = .empty)
      ∨ ∃ r, i = .cplRejected r ∧ c = .rejected r) →
    (∀ op k, s.ph = .busy op k → op = .setvar ∨ op = .close →
      exec i s = .next { s with completion := some c, ph := .closed } ∧
      exec .cplCancelled s = .next { s with cancel := false, completion := some .cancelled, ph := .closed }) ∧
    (∀ op k, s.ph = .busy op k → op ≠ .setvar → op ≠ .close →
      exec i s = .next { s with completion := some c, ph := .ready } ∧
      exec .cplCancelled s = .next { s with cancel := false, completion := some .cancelled, ph := .ready }) ∧
    (s.ph.isBusy = false →
      exec i s = .next { s with completion := some c } ∧
      exec .cplCancelled s = .next { s with cancel := false, completion := some .cancelled })

/-- R236, R230: taking a fatal error is one step: ERR.* record the code and the text, INFLIGHT is cleared, the link released, the
error logged, an executing operation completes FATAL, and PH is FAULTED; nothing else changes (bytes the carrier held back are
lost with the link, the model's choice, log 8). That an error row, or FATAL, is executed as an instruction and takes the whole
fatal error in any phase, CLOSED and FAULTED included, is the model's choice too (log 12). So is a
text that R230 never gives the code (log 25). -/
def Obligations.FatalErrorIsTakenAsOneStep : Prop :=
  ∀ (e : ErrCode) (text : Received) (s : State) (i : Instr) (code : BitVec 4),
    ((e = .grblBadAck ∧ code = 1 ∧ i = .errGrblBadAck text) ∨ (e = .grblStatusParse ∧ code = 2 ∧ i = .errGrblStatusParse text)
      ∨ (e = .trinusDeviceError ∧ code = 3 ∧ i = .errTrinusDeviceError text)
      ∨ (e = .rxOverrun ∧ code = 4 ∧ text = .line [] ∧ i = .errRxOverrun)
      ∨ (code = e.code ∧ i = .cplFatal e text)) →
    (s.ph.isBusy = true →
      exec i s = .next { s with
        errCode := code, errText := text, inflight := false, link := false, carrier := [],
        log := s.log ++ [⟨.error, text⟩], completion := some (.fatal e text), ph := .faulted }) ∧
    (s.ph.isBusy = false →
      exec i s = .next { s with
        errCode := code, errText := text, inflight := false, link := false, carrier := [],
        log := s.log ++ [⟨.error, text⟩], ph := .faulted })

/-! ## Events of the environment -/

/-- R105, R106: a time-out fires only while a read waits with no complete line; it removes nothing from RXBUF, transmits nothing,
and every loop but the drain comes round to its cancel point. -/
def Obligations.TimeoutLosesNothing : Prop :=
  ∀ (s : State) (es : List Input), s.inputs = .timeout :: es →
    (∀ op l, s.ph = .busy op (.read l) → l ≠ .drain → hasLine s.variant.term.bytes s.rxbuf = false →
      step s = .next { s with inputs := es, ph := .busy op (.top l) }) ∧
    ((∀ op c, s.ph = .busy op c → c.reads = false) → step s = .next { s with inputs := es }) ∧
    (hasLine s.variant.term.bytes s.rxbuf = true → step s = .next { s with inputs := es })

/-- R181, R182: the poll-interval event ends the sleep with a fresh query, and does nothing anywhere else. -/
def Obligations.PollEventStartsAFreshQuery : Prop :=
  ∀ (s : State) (es : List Input), s.inputs = .poll :: es →
    (∀ op k, s.ph = .busy op (.sleep k) →
      step s = .next { s with
        inputs := es, stCapt := false, txout := s.txout ++ [0x3F] ++ s.variant.term.bytes,
        log := s.log ++ [⟨.tx, .line [0x3F]⟩], ph := .busy op (.top (.acq k)) }) ∧
    ((∀ op k, s.ph ≠ .busy op (.sleep k)) → step s = .next { s with inputs := es })

/-- R241: at every cancel point (the top of each unbounded loop, and of the sleep) a set latch is consumed and the operation
completes CANCELLED, READY, before anything is read or sent; with the latch clear the operation goes on. -/
def Obligations.CancelPointEndsTheOperation : Prop :=
  ∀ (s : State) (op : Op) (c : Ctl), s.ph = .busy op c → (∃ l, c = .top l) ∨ (∃ k, c = .sleepTop k) →
    op ≠ .setvar → op ≠ .close → s.inputs = [] →
    (s.cancel = true → step s = .next { s with cancel := false, completion := some .cancelled, ph := .ready }) ∧
    (s.cancel = false →
      (∀ l, c = .top l → step s = .next { s with ph := .busy op (.read l) }) ∧
      (∀ k, c = .sleepTop k → step s = .next { s with ph := .busy op (.sleep k) }))

/-- R20, R29, R240: asserting CANCEL sets the latch and nothing else, in every phase, and nothing else sets it. The latch, once
set, is cleared (but for a reset) only by a cancel point, which ends the operation CANCELLED and changes nothing else, or by the
acceptance of a presented operation: a rejected one, and any event, leaves it. -/
def Obligations.CancelIsLatchedUntilConsumed : Prop :=
  ∀ s : State,
    (∀ es, s.inputs = .cancel :: es → step s = .next { s with inputs := es, cancel := true }) ∧
    (∀ t, step s = .next t → s.cancel = false → t.cancel = true → s.inputs = .cancel :: t.inputs) ∧
    (∀ t, step s = .next t → s.resetNext = false → s.cancel = true → t.cancel = false →
      (∃ op c, s.ph = .busy op c ∧ ((∃ l, c = .top l) ∨ ∃ k, c = .sleepTop k) ∧
        t = { s with inputs := s.inputs.tail, cancel := false, completion := some .cancelled, ph := t.ph } ∧
        t.ph.isBusy = false ∧ (op ≠ .setvar → op ≠ .close → t.ph = .ready)) ∨
      (∃ i, s.presented = some i ∧ s.accepts i = true ∧ ∀ r, t.completion ≠ some (.rejected r)))

/-- R240 to R242: with the latch set, an operation that waits for a line completes CANCELLED within one time-out, and nothing is
rolled back: RXBUF, TXOUT, INFLIGHT, RESEND, CUR, ST.*, NOTICEQ and the link are as they were. -/
def Obligations.CancelIsHonouredWithinOneTimeout : Prop :=
  ∀ (s : State) (op : Op) (l : Loop), s.Inv → s.ph = .busy op (.read l) → l ≠ .drain → s.cancel = true →
    hasLine s.variant.term.bytes s.rxbuf = false → s.inputs = [.timeout] →
    ∃ t, Sys2Proof.core.run 2 s = .next t ∧
      t = { s with inputs := [], cancel := false, completion := some .cancelled, ph := .ready }

/-- R102, R44, R55, R56: while the link is up and RXBUF has room, arriving bytes are appended whatever the phase; those that find no
room meet a full RXBUF as if they arrived alone; chunking never shows; while the link is down they are lost. Bytes held back (the
field that holds them is the model's, log 8) arrive before any later byte, and arrive as soon as a read waits with no line. -/
def Obligations.ArrivalAppendsToRxbuf : Prop :=
  ∀ (s : State) (d : Line) (es : List Input),
    (s.inputs = .rx d :: es →
      (s.link = false → step s = .next { s with inputs := es }) ∧
      (s.link = true → (∀ m, s.par.rxLineMax = some m → s.rxbuf.length + (s.carrier ++ d).length ≤ m) →
        step s = .next { s with inputs := es, rxbuf := s.rxbuf ++ (s.carrier ++ d), carrier := [] }) ∧
      (s.link = true → step s = step { s with carrier := [], inputs := .rx (s.carrier ++ d) :: es }) ∧
      (∀ a b, s.link = true → s.carrier = [] → d = a ++ b →
        (∀ m, s.par.rxLineMax = some m → s.rxbuf.length + a.length ≤ m) →
        step s = step { s with rxbuf := s.rxbuf ++ a, inputs := .rx b :: es })) ∧
    (∀ e, s.inputs = .rx d :: .rx e :: es → ∃ t, Sys2Proof.core.run 2 s = .next t ∧
      step { s with inputs := .rx (d ++ e) :: es } = .next t) ∧
    (∀ op c, s.ph = .busy op c → c.reads = true → s.inputs = [] → hasLine s.variant.term.bytes s.rxbuf = false →
      (s.carrier = [] → step s = .next s) ∧
      (s.carrier ≠ [] → step s = step { s with inputs := [.rx []] }))

/-- R56, R234: a byte that finds RXBUF full with no complete line is the fatal error RX_OVERRUN with empty text; one that finds it
full with a complete line is held back and RXBUF is unchanged. The model's choices: the field that keeps the bytes held back
(log 8), and that the overrunning byte and those behind it are lost (log 21). -/
def Obligations.FullRxbufOverrunsOrHoldsBack : Prop :=
  ∀ (s : State) (b : Byte) (d : Line) (m : Nat) (es : List Input),
    s.par.rxLineMax = some m → s.rxbuf.length = m → s.link = true → s.carrier = [] → s.inputs = .rx (b :: d) :: es →
    (hasLine s.variant.term.bytes s.rxbuf = false →
      step s = .next (({ s with inputs := es } : State).raise .rxOverrun (.line []))) ∧
    (hasLine s.variant.term.bytes s.rxbuf = true → step s = .next { s with inputs := es, carrier := b :: d })

/-- R34, R260: what reset leaves, at the start and when it strikes in any state, an executing operation included: no completion
record, and every piece of state at its value. The report fields, which the rule leaves unspecified, the build parameters and the
host's port are not stated. The model's choices (log 19): a reset drops the bytes held back and the lines of a job, and leaves the
rest of the schedule as it is. -/
def Obligations.ResetStateIsAsSpecified : Prop :=
  State.reset.variant = .grbl09 ∧ State.reset.cfgTerm = 1 ∧ State.reset.ph = .closed ∧ State.reset.link = false ∧
  State.reset.rxbuf = [] ∧ State.reset.txout = [] ∧ State.reset.cur = [] ∧ State.reset.inflight = false ∧
  State.reset.resend = false ∧ State.reset.cancel = false ∧ State.reset.stCapt = false ∧ State.reset.novf = false ∧
  State.reset.stValid = false ∧ State.reset.noticeq = [] ∧ State.reset.errCode = 0 ∧ State.reset.errText = .line [] ∧
  State.reset.completion = none ∧ State.reset.log = [] ∧
  ∀ (s : State) (es : List Input), s.inputs = .reset :: es →
    ∃ r p q, step s = .next { State.reset with st := r, par := p, port := q, inputs := es }

/-! ## Checksum unit, transform, framer, grammars -/

/-- R123: the checksummed form of every text without a star verifies (and of every other text too), and the checksum it carries is
that of the text. -/
def Obligations.ChecksummedTextVerifies : Prop :=
  ∀ t : Line, ckVerify (ckAppend t) = true ∧ unsuffix (ckAppend t) = t

/-- R121: the laws of `CK` (which is a function of the bytes alone): order independence, so that no transposition is detected,
concatenation, cancellation of equal bytes, the range, detection of every one-byte change, and a two-byte change that it misses. -/
def Obligations.ChecksumLaws : Prop :=
  (∀ s t : Line, s.Perm t → CK s = CK t) ∧
  (∀ s t : Line, CK (s ++ t) = CK s ^^^ CK t ^^^ 0x20) ∧
  (∀ (s : Line) (b : Byte), CK (s ++ [b] ++ [b]) = CK s) ∧ CK (ascii "AA") = 32 ∧ CK [] = 32 ∧
  (∀ s : Line, (CK s).toNat ≤ 255 ∧ ((∀ b ∈ s, b.toNat < 0x80) → (CK s).toNat ≤ 127)) ∧
  (∀ (s t : Line) (b c : Byte), b ≠ c → CK (s ++ b :: t) ≠ CK (s ++ c :: t)) ∧
  (∃ s t : Line, s.length = t.length ∧ s ≠ t ∧ CK s = CK t)

/-- R124 to R131: `strip` cuts at the first `;` and then removes trailing whitespace; a line is suppressed exactly when what is left
is a block-list entry, a display line goes out as `P_M117_SRC` says, a line that holds a star as stripped, any other with its
checksum. R17: at most 5 bytes are added. R123, R130: a line given a checksum verifies, and passes through the transform again
unchanged ("supports verbatim resend") unless it is itself a block-list entry. -/
def Obligations.TransformedLineIsStable : Prop :=
  ∀ (p : Params) (l : Line),
    (∃ w c, l = strip l ++ w ++ c ∧ (0x3B : Byte) ∉ strip l ++ w ∧ (c = [] ∨ ∃ r, c = 0x3B :: r) ∧
      (∀ b ∈ w, (0x09 ≤ b.toNat ∧ b.toNat ≤ 0x0D) ∨ b = 0x20) ∧
      ∀ b, (strip l).getLast? = some b → ¬ ((0x09 ≤ b.toNat ∧ b.toNat ≤ 0x0D) ∨ b = 0x20)) ∧
    (shorten p l = .suppress ↔ strip l = [0x47, 0x32, 0x31] ∨ strip l ∈ p.blockMore) ∧
    (strip l ≠ [0x47, 0x32, 0x31] → strip l ∉ p.blockMore →
      ([0x4D, 0x31, 0x31, 0x37] <+: strip l → p.m117 = .stripped → shorten p l = .send (strip l)) ∧
      ([0x4D, 0x31, 0x31, 0x37] <+: strip l → p.m117 = .original → shorten p l = .send l) ∧
      (¬ [0x4D, 0x31, 0x31, 0x37] <+: strip l → (0x2A : Byte) ∈ strip l → shorten p l = .send (strip l)) ∧
      (¬ [0x4D, 0x31, 0x31, 0x37] <+: strip l → (0x2A : Byte) ∉ strip l →
        shorten p l = .send (strip l ++ [0x20, 0x2A] ++ dec (CK (strip l)).toNat))) ∧
    ∀ u, shorten p l = .send u →
      u.length ≤ l.length + 5 ∧
      (¬ [0x4D, 0x31, 0x31, 0x37] <+: strip l → (0x2A : Byte) ∉ strip l →
        ckVerify u = true ∧ (u ∉ p.blocklist → shorten p u = .send u))

/-- R103: `hasLine` says that the terminator occurs; `split` is defined exactly then, cuts at the least position where it occurs,
and gives what stands before it and what stands after it. -/
def Obligations.SplitCutsAtTheFirstTerminator : Prop :=
  ∀ (v : Variant) (b : Line),
    (hasLine v.term.bytes b = true ↔ ∃ l r, b = l ++ v.term.bytes ++ r) ∧
    (hasLine v.term.bytes b = true ↔ ∃ l r, splitLine v.term.bytes b = some (l, r)) ∧
    ∀ l r, splitLine v.term.bytes b = some (l, r) ↔
      b = l ++ v.term.bytes ++ r ∧ ∀ l' r', b = l' ++ v.term.bytes ++ r' → l.length ≤ l'.length

/-- R172: a 0.9-format line fails on GRBL11 and the reverse, and only status-shaped lines parse. TRINUS and MARLIN parse nothing:
no rule asks them to (R190), the total function's value there is the model's (log 23). -/
def Obligations.DialectsExcludeEachOther : Prop :=
  ∀ t : Line,
    ((parseStatus .grbl09 t).isSome = true → parseStatus .grbl11 t = none) ∧
    ((parseStatus .grbl11 t).isSome = true → parseStatus .grbl09 t = none) ∧
    (∀ v, (parseStatus v t).isSome = true → isStatusShaped t = true) ∧
    parseStatus .trinus t = none ∧ parseStatus .marlin t = none

/-- R80, R173: the source's two worked lines parse with the values it gives, and the listed lines fail. -/
def Obligations.WorkedStatusLinesParseAndListedOnesFail : Prop :=
  (parseStatus .grbl09 (ascii "<Idle,MPos:0.000,0.000,0.000,WPos:0.000,0.000,0.000,Buf:0,RX:0,Ln:0,F:0.>")
    = some { state := ascii "Idle", sub := none, cmdbuf := 0, rxbuf := 0,
             mpos := some ⟨ascii "0.000", ascii "0.000", ascii "0.000"⟩, wpos := some ⟨ascii "0.000", ascii "0.000", ascii "0.000"⟩,
             ln := some 0, feed := some (ascii "0.") }) ∧
  (parseStatus .grbl11 (ascii "<Idle|MPos:0.000,0.000,0.000|Bf:15,128|FS:0,0>")
    = some { state := ascii "Idle", sub := none, cmdbuf := 15, rxbuf := 128,
             mpos := some ⟨ascii "0.000", ascii "0.000", ascii "0.000"⟩, wpos := none, ln := none, feed := none }) ∧
  parseStatus .grbl11 (ascii "<>") = none ∧ parseStatus .grbl09 (ascii "<>") = none ∧ parseStatus .grbl11 (ascii "<Idle>") = none ∧ parseStatus .grbl09 (ascii "<Idle>") = none ∧
  parseStatus .grbl11 (ascii "<Idle|Bf:15>") = none ∧ parseStatus .grbl11 (ascii "<Idle|Bf:15,128|Bf:15,128>") = none ∧
  parseStatus .grbl11 (ascii "<Idle|Bf:-1,128>") = none ∧ parseStatus .grbl11 (ascii "<Idle|Bf:15,1280000000>") = none ∧
  parseStatus .grbl11 (ascii "<Idle|MPos:0,0|Bf:15,128>") = none ∧ parseStatus .grbl11 (ascii "<Idle||Bf:15,128>") = none ∧
  parseStatus .grbl11 (ascii "<Idle|Bf:15,128|Pn>") = none ∧ parseStatus .grbl11 (ascii "<Hold:x|Bf:15,128>") = none ∧
  parseStatus .grbl09 (ascii "<Idle,Buf:0>") = none ∧ parseStatus .grbl09 (ascii "<Idle,RX:0,Buf:0>") = none ∧
  parseStatus .grbl09 (ascii "<Idle,Buf:0,RX:0,FS:0>") = none ∧ isStatusShaped (ascii "<Idle,Buf:0,RX:0> ") = false ∧
  parseStatus .grbl09 (ascii "<Idle|Bf:15,128>") = none ∧ parseStatus .grbl11 (ascii "<Idle|MPos:0.000,0.000,0.000|FS:0,0>") = none

/-- R177, R178, R179: the predicates compare the report's numbers and token as given; GATE11 is never true when cmdbuf ≤ 2 or
rxbuf ≤ 5 + n. -/
def Obligations.PredicatesCompareTheReport : Prop :=
  ∀ (r : StatusReport) (n : Nat),
    (holds .gate09 r = true ↔ r.cmdbuf.toNat < 10 ∧ r.rxbuf.toNat < 100) ∧
    (holds (.gate11 n) r = true ↔ ¬ (r.cmdbuf.toNat ≤ 2 ∨ r.rxbuf.toNat ≤ 5 + n)) ∧
    (holds .idle r = true ↔ r.state = [0x49, 0x64, 0x6C, 0x65])

/-! ## The whole machine

What the host presents to a step (`State.presented`) is what the schedule, the job and the port give: the model's choices, log 4 and
log 6. -/

/-- The invariant holds right after reset, whatever the build parameters are. -/
def Obligations.ResetMeetsTheInvariant : Prop :=
  State.reset.Inv ∧ ∀ p : Params, (State.resetWith p).Inv

/-- Every step from a state that meets the invariant, whatever the environment does, leads to a state that meets it. -/
def Obligations.EveryStepKeepsTheInvariant : Prop :=
  ∀ s t : State, s.Inv → step s = .next t → t.Inv

/-- The machine never stops: from every state and for every schedule the step answers a next state (R250: a wait is no end). -/
def Obligations.EveryStepAnswers : Prop :=
  ∀ s : State, ∃ t, step s = .next t

/-- R16, R48: TXOUT is append-only: no step but a reset removes, reorders or changes a transmitted byte. -/
def Obligations.TransmittedBytesStay : Prop :=
  ∀ s t : State, step s = .next t → s.resetNext = false → s.txout <+: t.txout

/-- R51, R203, R218: while a line awaits its acknowledgment, the only step that transmits is a Trinus resend of the identical line,
with RESEND set before and cleared after; so MARLIN and Grbl transmit nothing then. -/
def Obligations.OnlyAResendTransmitsWhileALineIsAwaited : Prop :=
  ∀ (s t : State) (op : Op) (c : Ctl), s.Inv → s.ph = .busy op c → c.awaitsAck = true → s.resetNext = false →
    step s = .next t → t.txout ≠ s.txout →
    s.variant = .trinus ∧ s.resend = true ∧ t.resend = false ∧ t.cur = s.cur ∧ t.inflight = true ∧
    t.txout = s.txout ++ s.cur ++ [0x0A]

/-- R18: INFLIGHT is set only by transmitting the line of a QUEUE or FEED: a Grbl line as given, after its gate or, for the query
line, at acceptance; a transformed line, latched in CUR, on TRINUS and MARLIN; the operation then awaits the acknowledgment. It is
cleared (but for a reset) only by that operation reading the line `ok` as its terminal acknowledgment, by a fatal error, and by the
acceptance of OPEN or TOPEN (R35): so a CANCELLED leaves it (R242), and so does any other line or operation. -/
def Obligations.InflightFollowsTheLine : Prop :=
  ∀ s t : State, s.Inv → step s = .next t → s.resetNext = false →
    (s.inflight = false → t.inflight = true →
      ∃ op l, t.ph = .busy op (.top l) ∧ op.sendsLine = true ∧ t.variant = s.variant ∧
        ((∃ u, l = .ack u ∧ s.variant.isGrbl = true ∧ t.txout = s.txout ++ u ++ [0x0D, 0x0A] ∧
            (s.ph = .busy op (.read (.acq (.gate u))) ∨
              (u = [0x3F] ∧ s.ph = .ready ∧ ∃ i, s.presented = some i ∧ hostOp i = some op ∧ commandLine i = some u))) ∨
          (((l = .recvTrinus ∧ s.variant = .trinus) ∨ (l = .recvMarlin ∧ s.variant = .marlin)) ∧
            t.txout = s.txout ++ t.cur ++ [0x0A] ∧ s.ph = .ready ∧
            ∃ i k, s.presented = some i ∧ hostOp i = some op ∧ commandLine i = some k ∧ shorten s.par k = .send t.cur))) ∧
    (s.inflight = true → t.inflight = false →
      (∃ op l, s.ph = .busy op (.read l) ∧ op.sendsLine = true ∧ l.awaitsAck = true ∧
          splitLine s.variant.term.bytes s.rxbuf = some ([0x6F, 0x6B], t.rxbuf) ∧ (l = .recvTrinus → s.resend = false) ∧
          ((t.ph = .ready ∧ t.completion = some (.ok (.text [0x6F, 0x6B])) ∧ ∀ u ∈ s.par.pgmEnd, l ≠ .ack u) ∨
            (t.ph = .busy op (.pgmEnd 4) ∧ ∃ u ∈ s.par.pgmEnd, l = .ack u))) ∨
      (t.ph = .faulted ∧ s.ph ≠ .faulted ∧ t.errCode ≠ 0) ∨
      (s.ph = .closed ∧ ∃ i, s.presented = some i ∧ (i = .topen ∨ ∃ b, i = .openOp b)))

/-- R11, R141: the variant, and with it the terminator, changes only in CLOSED (or by reset). R262: the build parameters, which
stand in State by the model's choice (log 2), are not writable: no step changes them. -/
def Obligations.ConfigurationChangesOnlyInClosed : Prop :=
  ∀ s t : State, step s = .next t →
    t.par = s.par ∧ (s.resetNext = false → t.variant ≠ s.variant → s.ph = .closed ∧ t.ph = .closed)

/-- R238: the only way out of FAULTED is CLOSE (or reset); until then nothing is transmitted and ERR.* keep their values. -/
def Obligations.FaultedIsLeftOnlyByClose : Prop :=
  ∀ s t : State, s.Inv → s.ph = .faulted → step s = .next t → s.resetNext = false →
    (t.ph = .faulted ∨ (t.ph = .closed ∧ ∃ p ps, s.port = p :: ps ∧ p.decode = .close)) ∧
    t.txout = s.txout ∧ t.errCode = s.errCode ∧ t.errText = s.errText ∧ t.rxbuf = s.rxbuf

/-- R49, R46: RXBUF is consumed strictly in arrival order. A step appends arriving bytes in order (those the event brings, behind
those held back, log 8; or those held back, when a read waits with no line), or a waiting read removes the first line with its
terminator, or an accepted OPEN or TOPEN, or reset, empties it; else it is unchanged. -/
def Obligations.RxbufIsConsumedInOrder : Prop :=
  ∀ s t : State, step s = .next t →
    t.rxbuf = s.rxbuf ∨
    (∃ d x k, s.link = true ∧ s.carrier ++ d = x ++ k ∧ t.rxbuf = s.rxbuf ++ x ∧
      (t.carrier = k ∨ (t.ph = .faulted ∧ t.errCode = 4)) ∧
      (s.inputs = .rx d :: t.inputs ∨
        (d = [] ∧ s.turn = true ∧ hasLine s.variant.term.bytes s.rxbuf = false ∧ ∃ op c, s.ph = .busy op c ∧ c.reads = true))) ∨
    (∃ op c raw, s.ph = .busy op c ∧ c.reads = true ∧ s.turn = true ∧
      splitLine s.variant.term.bytes s.rxbuf = some (raw, t.rxbuf) ∧ s.rxbuf = raw ++ s.variant.term.bytes ++ t.rxbuf) ∨
    (t.rxbuf = [] ∧ (s.resetNext = true ∨
      (s.ph = .closed ∧ ∃ i, s.presented = some i ∧ (i = .topen ∨ ∃ b, i = .openOp b))))

/-- R24, R150, R149: NOTICEQ is first in, first out: a step appends the one line a read has just taken, or an NPOP removes the
oldest notice and completes with it, or an accepted OPEN or TOPEN, or reset, empties it; else it is unchanged. -/
def Obligations.NoticesAreFirstInFirstOut : Prop :=
  ∀ s t : State, step s = .next t →
    t.noticeq = s.noticeq ∨
    (∃ op l n, s.ph = .busy op (.read l) ∧ splitLine s.variant.term.bytes s.rxbuf = some (n, t.rxbuf) ∧
      t.noticeq = s.noticeq ++ [n]) ∨
    (∃ n, s.noticeq = n :: t.noticeq ∧ s.presented = some .npop ∧ t.completion = some (.ok (.text n))) ∨
    (t.noticeq = [] ∧ (s.resetNext = true ∨
      (s.ph = .closed ∧ ∃ i, s.presented = some i ∧ (i = .topen ∨ ∃ b, i = .openOp b))))

/-- R21, R34: while `ST.VALID = 0` no rule reads the report registers: two states that differ only in them step to states that
differ at most in them, and not once a report is valid. So no statement rests on their reset values (log 1). -/
def Obligations.UnreadReportRegistersAreInvisible : Prop :=
  ∀ (s t : State) (r : StatusReport), s.stValid = false → step s = .next t →
    ∃ t', step { s with st := r } = .next t' ∧ t'.hideUnread = t.hideUnread

/-- R16, R30, R248: no rule reads TXOUT or LOG: with other contents before the step, the step does the same and appends the same. -/
def Obligations.OutputsAreNeverRead : Prop :=
  ∀ (s t : State) (tx : Line) (lg : List LogRec), s.resetNext = false → step s = .next t →
    ∃ dt dl, t.txout = s.txout ++ dt ∧ t.log = s.log ++ dl ∧
      step { s with txout := tx, log := lg } = .next { t with txout := tx ++ dt, log := lg ++ dl }
end

