-- ==== Sys2Proof/Laws/Classes.lean ====
section
/-!
SUPPORT. The classes of received lines lose nothing (R73 to R75): what was received can be read back from its class.
-/

namespace Sys2Proof

/-- What was received, read back from its Grbl class. -/
def GClass.received : GClass → Received
  | .notice t => .line t
  | .status t => .line t
  | .ok => .line okText
  | .other r => r

/-- What was received, read back from its Trinus class. -/
def TClass.received : TClass → Received
  | .ckerr => .line ckerrText
  | .error t => .line t
  | .info t => .line t
  | .ok => .line okText
  | .other r => r

/-- What was received, read back from its Marlin class. -/
def MClass.received : MClass → Received
  | .info t => .line t
  | .ok => .line okText
  | .other r => r

/-- A Grbl class loses nothing of what was received. -/
theorem grblClass_received (r : Received) : GClass.received (grblClass r) = r := by
  cases r with
  | bad => rfl
  | line t =>
    unfold grblClass
    dsimp only
    split_ifs with h1 h2 h3
    · rfl
    · rfl
    · exact congrArg _ h3.symm
    · rfl

/-- A Trinus class loses nothing of what was received. -/
theorem trinusClass_received (r : Received) : TClass.received (trinusClass r) = r := by
  cases r with
  | bad => rfl
  | line t =>
    unfold trinusClass
    dsimp only
    split_ifs with h1 h2 h3 h4
    · exact congrArg _ h1.symm
    · rfl
    · rfl
    · exact congrArg _ h4.symm
    · rfl

/-- A Marlin class loses nothing of what was received. -/
theorem marlinClass_received (r : Received) : MClass.received (marlinClass r) = r := by
  cases r with
  | bad => rfl
  | line t =>
    unfold marlinClass
    dsimp only
    split_ifs with h1 h2
    · rfl
    · exact congrArg _ h2.symm
    · rfl

/-- A raw line that decodes to a text is that text. -/
theorem ofRaw_eq_line {raw t : Line} (h : Received.ofRaw raw = .line t) : t = raw := by
  unfold Received.ofRaw at h
  split at h
  · exact (Received.line.inj h).symm
  · cases h

/-- The shape of R72: a first byte, any bytes, a last byte. -/
theorem delimited_iff (a z : Byte) (t : Line) : delimited a z t = true ↔ ∃ m, t = [a] ++ m ++ [z] := by
  simp only [delimited, Bool.and_eq_true, decide_eq_true_eq, beq_iff_eq]
  constructor
  · rintro ⟨⟨h1, h2⟩, h3⟩
    cases t with
    | nil => simp at h1
    | cons x xs =>
      simp at h2; subst h2
      have hx : xs ≠ [] := by rintro rfl; simp at h1
      rw [List.getLast?_cons, List.getLast?_eq_getLast_of_ne_nil hx] at h3
      simp at h3
      refine ⟨xs.dropLast, ?_⟩
      rw [← h3]; simp [List.dropLast_append_getLast hx]
  · rintro ⟨m, rfl⟩
    simp [List.getLast?_cons]

end Sys2Proof
end

