-- ==== Sys2Proof/Laws/State.lean ====
section
/-!
SUPPORT. One lemma per field per named update of the state, each true by computation, so that no proof unfolds an update.
-/

namespace Sys2Proof.Machine

variable (s : State)

/-! ## setInflight -/

@[simp] theorem State.setInflight_variant : (s.setInflight).variant = s.variant := rfl
@[simp] theorem State.setInflight_ph : (s.setInflight).ph = s.ph := rfl
@[simp] theorem State.setInflight_link : (s.setInflight).link = s.link := rfl
@[simp] theorem State.setInflight_rxbuf : (s.setInflight).rxbuf = s.rxbuf := rfl
@[simp] theorem State.setInflight_txout : (s.setInflight).txout = s.txout := rfl
@[simp] theorem State.setInflight_cur : (s.setInflight).cur = s.cur := rfl
@[simp] theorem State.setInflight_inflight : (s.setInflight).inflight = true := rfl
@[simp] theorem State.setInflight_resend : (s.setInflight).resend = s.resend := rfl
@[simp] theorem State.setInflight_cancel : (s.setInflight).cancel = s.cancel := rfl
@[simp] theorem State.setInflight_stValid : (s.setInflight).stValid = s.stValid := rfl
@[simp] theorem State.setInflight_st : (s.setInflight).st = s.st := rfl
@[simp] theorem State.setInflight_stCapt : (s.setInflight).stCapt = s.stCapt := rfl
@[simp] theorem State.setInflight_noticeq : (s.setInflight).noticeq = s.noticeq := rfl
@[simp] theorem State.setInflight_novf : (s.setInflight).novf = s.novf := rfl
@[simp] theorem State.setInflight_errCode : (s.setInflight).errCode = s.errCode := rfl
@[simp] theorem State.setInflight_errText : (s.setInflight).errText = s.errText := rfl
@[simp] theorem State.setInflight_port : (s.setInflight).port = s.port := rfl
@[simp] theorem State.setInflight_completion : (s.setInflight).completion = s.completion := rfl
@[simp] theorem State.setInflight_log : (s.setInflight).log = s.log := rfl
@[simp] theorem State.setInflight_par : (s.setInflight).par = s.par := rfl
@[simp] theorem State.setInflight_carrier : (s.setInflight).carrier = s.carrier := rfl
@[simp] theorem State.setInflight_job : (s.setInflight).job = s.job := rfl
@[simp] theorem State.setInflight_inputs : (s.setInflight).inputs = s.inputs := rfl

/-! ## clearInflight -/

@[simp] theorem State.clearInflight_variant : (s.clearInflight).variant = s.variant := rfl
@[simp] theorem State.clearInflight_ph : (s.clearInflight).ph = s.ph := rfl
@[simp] theorem State.clearInflight_link : (s.clearInflight).link = s.link := rfl
@[simp] theorem State.clearInflight_rxbuf : (s.clearInflight).rxbuf = s.rxbuf := rfl
@[simp] theorem State.clearInflight_txout : (s.clearInflight).txout = s.txout := rfl
@[simp] theorem State.clearInflight_cur : (s.clearInflight).cur = s.cur := rfl
@[simp] theorem State.clearInflight_inflight : (s.clearInflight).inflight = false := rfl
@[simp] theorem State.clearInflight_resend : (s.clearInflight).resend = s.resend := rfl
@[simp] theorem State.clearInflight_cancel : (s.clearInflight).cancel = s.cancel := rfl
@[simp] theorem State.clearInflight_stValid : (s.clearInflight).stValid = s.stValid := rfl
@[simp] theorem State.clearInflight_st : (s.clearInflight).st = s.st := rfl
@[simp] theorem State.clearInflight_stCapt : (s.clearInflight).stCapt = s.stCapt := rfl
@[simp] theorem State.clearInflight_noticeq : (s.clearInflight).noticeq = s.noticeq := rfl
@[simp] theorem State.clearInflight_novf : (s.clearInflight).novf = s.novf := rfl
@[simp] theorem State.clearInflight_errCode : (s.clearInflight).errCode = s.errCode := rfl
@[simp] theorem State.clearInflight_errText : (s.clearInflight).errText = s.errText := rfl
@[simp] theorem State.clearInflight_port : (s.clearInflight).port = s.port := rfl
@[simp] theorem State.clearInflight_completion : (s.clearInflight).completion = s.completion := rfl
@[simp] theorem State.clearInflight_log : (s.clearInflight).log = s.log := rfl
@[simp] theorem State.clearInflight_par : (s.clearInflight).par = s.par := rfl
@[simp] theorem State.clearInflight_carrier : (s.clearInflight).carrier = s.carrier := rfl
@[simp] theorem State.clearInflight_job : (s.clearInflight).job = s.job := rfl
@[simp] theorem State.clearInflight_inputs : (s.clearInflight).inputs = s.inputs := rfl

/-! ## setResend -/

@[simp] theorem State.setResend_variant : (s.setResend).variant = s.variant := rfl
@[simp] theorem State.setResend_ph : (s.setResend).ph = s.ph := rfl
@[simp] theorem State.setResend_link : (s.setResend).link = s.link := rfl
@[simp] theorem State.setResend_rxbuf : (s.setResend).rxbuf = s.rxbuf := rfl
@[simp] theorem State.setResend_txout : (s.setResend).txout = s.txout := rfl
@[simp] theorem State.setResend_cur : (s.setResend).cur = s.cur := rfl
@[simp] theorem State.setResend_inflight : (s.setResend).inflight = s.inflight := rfl
@[simp] theorem State.setResend_resend : (s.setResend).resend = true := rfl
@[simp] theorem State.setResend_cancel : (s.setResend).cancel = s.cancel := rfl
@[simp] theorem State.setResend_stValid : (s.setResend).stValid = s.stValid := rfl
@[simp] theorem State.setResend_st : (s.setResend).st = s.st := rfl
@[simp] theorem State.setResend_stCapt : (s.setResend).stCapt = s.stCapt := rfl
@[simp] theorem State.setResend_noticeq : (s.setResend).noticeq = s.noticeq := rfl
@[simp] theorem State.setResend_novf : (s.setResend).novf = s.novf := rfl
@[simp] theorem State.setResend_errCode : (s.setResend).errCode = s.errCode := rfl
@[simp] theorem State.setResend_errText : (s.setResend).errText = s.errText := rfl
@[simp] theorem State.setResend_port : (s.setResend).port = s.port := rfl
@[simp] theorem State.setResend_completion : (s.setResend).completion = s.completion := rfl
@[simp] theorem State.setResend_log : (s.setResend).log = s.log := rfl
@[simp] theorem State.setResend_par : (s.setResend).par = s.par := rfl
@[simp] theorem State.setResend_carrier : (s.setResend).carrier = s.carrier := rfl
@[simp] theorem State.setResend_job : (s.setResend).job = s.job := rfl
@[simp] theorem State.setResend_inputs : (s.setResend).inputs = s.inputs := rfl

/-! ## clearResend -/

@[simp] theorem State.clearResend_variant : (s.clearResend).variant = s.variant := rfl
@[simp] theorem State.clearResend_ph : (s.clearResend).ph = s.ph := rfl
@[simp] theorem State.clearResend_link : (s.clearResend).link = s.link := rfl
@[simp] theorem State.clearResend_rxbuf : (s.clearResend).rxbuf = s.rxbuf := rfl
@[simp] theorem State.clearResend_txout : (s.clearResend).txout = s.txout := rfl
@[simp] theorem State.clearResend_cur : (s.clearResend).cur = s.cur := rfl
@[simp] theorem State.clearResend_inflight : (s.clearResend).inflight = s.inflight := rfl
@[simp] theorem State.clearResend_resend : (s.clearResend).resend = false := rfl
@[simp] theorem State.clearResend_cancel : (s.clearResend).cancel = s.cancel := rfl
@[simp] theorem State.clearResend_stValid : (s.clearResend).stValid = s.stValid := rfl
@[simp] theorem State.clearResend_st : (s.clearResend).st = s.st := rfl
@[simp] theorem State.clearResend_stCapt : (s.clearResend).stCapt = s.stCapt := rfl
@[simp] theorem State.clearResend_noticeq : (s.clearResend).noticeq = s.noticeq := rfl
@[simp] theorem State.clearResend_novf : (s.clearResend).novf = s.novf := rfl
@[simp] theorem State.clearResend_errCode : (s.clearResend).errCode = s.errCode := rfl
@[simp] theorem State.clearResend_errText : (s.clearResend).errText = s.errText := rfl
@[simp] theorem State.clearResend_port : (s.clearResend).port = s.port := rfl
@[simp] theorem State.clearResend_completion : (s.clearResend).completion = s.completion := rfl
@[simp] theorem State.clearResend_log : (s.clearResend).log = s.log := rfl
@[simp] theorem State.clearResend_par : (s.clearResend).par = s.par := rfl
@[simp] theorem State.clearResend_carrier : (s.clearResend).carrier = s.carrier := rfl
@[simp] theorem State.clearResend_job : (s.clearResend).job = s.job := rfl
@[simp] theorem State.clearResend_inputs : (s.clearResend).inputs = s.inputs := rfl

/-! ## setCancel -/

@[simp] theorem State.setCancel_variant : (s.setCancel).variant = s.variant := rfl
@[simp] theorem State.setCancel_ph : (s.setCancel).ph = s.ph := rfl
@[simp] theorem State.setCancel_link : (s.setCancel).link = s.link := rfl
@[simp] theorem State.setCancel_rxbuf : (s.setCancel).rxbuf = s.rxbuf := rfl
@[simp] theorem State.setCancel_txout : (s.setCancel).txout = s.txout := rfl
@[simp] theorem State.setCancel_cur : (s.setCancel).cur = s.cur := rfl
@[simp] theorem State.setCancel_inflight : (s.setCancel).inflight = s.inflight := rfl
@[simp] theorem State.setCancel_resend : (s.setCancel).resend = s.resend := rfl
@[simp] theorem State.setCancel_cancel : (s.setCancel).cancel = true := rfl
@[simp] theorem State.setCancel_stValid : (s.setCancel).stValid = s.stValid := rfl
@[simp] theorem State.setCancel_st : (s.setCancel).st = s.st := rfl
@[simp] theorem State.setCancel_stCapt : (s.setCancel).stCapt = s.stCapt := rfl
@[simp] theorem State.setCancel_noticeq : (s.setCancel).noticeq = s.noticeq := rfl
@[simp] theorem State.setCancel_novf : (s.setCancel).novf = s.novf := rfl
@[simp] theorem State.setCancel_errCode : (s.setCancel).errCode = s.errCode := rfl
@[simp] theorem State.setCancel_errText : (s.setCancel).errText = s.errText := rfl
@[simp] theorem State.setCancel_port : (s.setCancel).port = s.port := rfl
@[simp] theorem State.setCancel_completion : (s.setCancel).completion = s.completion := rfl
@[simp] theorem State.setCancel_log : (s.setCancel).log = s.log := rfl
@[simp] theorem State.setCancel_par : (s.setCancel).par = s.par := rfl
@[simp] theorem State.setCancel_carrier : (s.setCancel).carrier = s.carrier := rfl
@[simp] theorem State.setCancel_job : (s.setCancel).job = s.job := rfl
@[simp] theorem State.setCancel_inputs : (s.setCancel).inputs = s.inputs := rfl

/-! ## clearCancel -/

@[simp] theorem State.clearCancel_variant : (s.clearCancel).variant = s.variant := rfl
@[simp] theorem State.clearCancel_ph : (s.clearCancel).ph = s.ph := rfl
@[simp] theorem State.clearCancel_link : (s.clearCancel).link = s.link := rfl
@[simp] theorem State.clearCancel_rxbuf : (s.clearCancel).rxbuf = s.rxbuf := rfl
@[simp] theorem State.clearCancel_txout : (s.clearCancel).txout = s.txout := rfl
@[simp] theorem State.clearCancel_cur : (s.clearCancel).cur = s.cur := rfl
@[simp] theorem State.clearCancel_inflight : (s.clearCancel).inflight = s.inflight := rfl
@[simp] theorem State.clearCancel_resend : (s.clearCancel).resend = s.resend := rfl
@[simp] theorem State.clearCancel_cancel : (s.clearCancel).cancel = false := rfl
@[simp] theorem State.clearCancel_stValid : (s.clearCancel).stValid = s.stValid := rfl
@[simp] theorem State.clearCancel_st : (s.clearCancel).st = s.st := rfl
@[simp] theorem State.clearCancel_stCapt : (s.clearCancel).stCapt = s.stCapt := rfl
@[simp] theorem State.clearCancel_noticeq : (s.clearCancel).noticeq = s.noticeq := rfl
@[simp] theorem State.clearCancel_novf : (s.clearCancel).novf = s.novf := rfl
@[simp] theorem State.clearCancel_errCode : (s.clearCancel).errCode = s.errCode := rfl
@[simp] theorem State.clearCancel_errText : (s.clearCancel).errText = s.errText := rfl
@[simp] theorem State.clearCancel_port : (s.clearCancel).port = s.port := rfl
@[simp] theorem State.clearCancel_completion : (s.clearCancel).completion = s.completion := rfl
@[simp] theorem State.clearCancel_log : (s.clearCancel).log = s.log := rfl
@[simp] theorem State.clearCancel_par : (s.clearCancel).par = s.par := rfl
@[simp] theorem State.clearCancel_carrier : (s.clearCancel).carrier = s.carrier := rfl
@[simp] theorem State.clearCancel_job : (s.clearCancel).job = s.job := rfl
@[simp] theorem State.clearCancel_inputs : (s.clearCancel).inputs = s.inputs := rfl

/-! ## clearCapt -/

@[simp] theorem State.clearCapt_variant : (s.clearCapt).variant = s.variant := rfl
@[simp] theorem State.clearCapt_ph : (s.clearCapt).ph = s.ph := rfl
@[simp] theorem State.clearCapt_link : (s.clearCapt).link = s.link := rfl
@[simp] theorem State.clearCapt_rxbuf : (s.clearCapt).rxbuf = s.rxbuf := rfl
@[simp] theorem State.clearCapt_txout : (s.clearCapt).txout = s.txout := rfl
@[simp] theorem State.clearCapt_cur : (s.clearCapt).cur = s.cur := rfl
@[simp] theorem State.clearCapt_inflight : (s.clearCapt).inflight = s.inflight := rfl
@[simp] theorem State.clearCapt_resend : (s.clearCapt).resend = s.resend := rfl
@[simp] theorem State.clearCapt_cancel : (s.clearCapt).cancel = s.cancel := rfl
@[simp] theorem State.clearCapt_stValid : (s.clearCapt).stValid = s.stValid := rfl
@[simp] theorem State.clearCapt_st : (s.clearCapt).st = s.st := rfl
@[simp] theorem State.clearCapt_stCapt : (s.clearCapt).stCapt = false := rfl
@[simp] theorem State.clearCapt_noticeq : (s.clearCapt).noticeq = s.noticeq := rfl
@[simp] theorem State.clearCapt_novf : (s.clearCapt).novf = s.novf := rfl
@[simp] theorem State.clearCapt_errCode : (s.clearCapt).errCode = s.errCode := rfl
@[simp] theorem State.clearCapt_errText : (s.clearCapt).errText = s.errText := rfl
@[simp] theorem State.clearCapt_port : (s.clearCapt).port = s.port := rfl
@[simp] theorem State.clearCapt_completion : (s.clearCapt).completion = s.completion := rfl
@[simp] theorem State.clearCapt_log : (s.clearCapt).log = s.log := rfl
@[simp] theorem State.clearCapt_par : (s.clearCapt).par = s.par := rfl
@[simp] theorem State.clearCapt_carrier : (s.clearCapt).carrier = s.carrier := rfl
@[simp] theorem State.clearCapt_job : (s.clearCapt).job = s.job := rfl
@[simp] theorem State.clearCapt_inputs : (s.clearCapt).inputs = s.inputs := rfl

/-! ## logged -/

@[simp] theorem State.logged_variant (c : LogClass) (r : Received) : (s.logged c r).variant = s.variant := rfl
@[simp] theorem State.logged_ph (c : LogClass) (r : Received) : (s.logged c r).ph = s.ph := rfl
@[simp] theorem State.logged_link (c : LogClass) (r : Received) : (s.logged c r).link = s.link := rfl
@[simp] theorem State.logged_rxbuf (c : LogClass) (r : Received) : (s.logged c r).rxbuf = s.rxbuf := rfl
@[simp] theorem State.logged_txout (c : LogClass) (r : Received) : (s.logged c r).txout = s.txout := rfl
@[simp] theorem State.logged_cur (c : LogClass) (r : Received) : (s.logged c r).cur = s.cur := rfl
@[simp] theorem State.logged_inflight (c : LogClass) (r : Received) : (s.logged c r).inflight = s.inflight := rfl
@[simp] theorem State.logged_resend (c : LogClass) (r : Received) : (s.logged c r).resend = s.resend := rfl
@[simp] theorem State.logged_cancel (c : LogClass) (r : Received) : (s.logged c r).cancel = s.cancel := rfl
@[simp] theorem State.logged_stValid (c : LogClass) (r : Received) : (s.logged c r).stValid = s.stValid := rfl
@[simp] theorem State.logged_st (c : LogClass) (r : Received) : (s.logged c r).st = s.st := rfl
@[simp] theorem State.logged_stCapt (c : LogClass) (r : Received) : (s.logged c r).stCapt = s.stCapt := rfl
@[simp] theorem State.logged_noticeq (c : LogClass) (r : Received) : (s.logged c r).noticeq = s.noticeq := rfl
@[simp] theorem State.logged_novf (c : LogClass) (r : Received) : (s.logged c r).novf = s.novf := rfl
@[simp] theorem State.logged_errCode (c : LogClass) (r : Received) : (s.logged c r).errCode = s.errCode := rfl
@[simp] theorem State.logged_errText (c : LogClass) (r : Received) : (s.logged c r).errText = s.errText := rfl
@[simp] theorem State.logged_port (c : LogClass) (r : Received) : (s.logged c r).port = s.port := rfl
@[simp] theorem State.logged_completion (c : LogClass) (r : Received) : (s.logged c r).completion = s.completion := rfl
@[simp] theorem State.logged_log (c : LogClass) (r : Received) : (s.logged c r).log = s.log ++ [⟨c, r⟩] := rfl
@[simp] theorem State.logged_par (c : LogClass) (r : Received) : (s.logged c r).par = s.par := rfl
@[simp] theorem State.logged_carrier (c : LogClass) (r : Received) : (s.logged c r).carrier = s.carrier := rfl
@[simp] theorem State.logged_job (c : LogClass) (r : Received) : (s.logged c r).job = s.job := rfl
@[simp] theorem State.logged_inputs (c : LogClass) (r : Received) : (s.logged c r).inputs = s.inputs := rfl

/-! ## goto -/

@[simp] theorem State.goto_variant (op : Op) (c : Ctl) : (s.goto op c).variant = s.variant := rfl
@[simp] theorem State.goto_ph (op : Op) (c : Ctl) : (s.goto op c).ph = .busy op c := rfl
@[simp] theorem State.goto_link (op : Op) (c : Ctl) : (s.goto op c).link = s.link := rfl
@[simp] theorem State.goto_rxbuf (op : Op) (c : Ctl) : (s.goto op c).rxbuf = s.rxbuf := rfl
@[simp] theorem State.goto_txout (op : Op) (c : Ctl) : (s.goto op c).txout = s.txout := rfl
@[simp] theorem State.goto_cur (op : Op) (c : Ctl) : (s.goto op c).cur = s.cur := rfl
@[simp] theorem State.goto_inflight (op : Op) (c : Ctl) : (s.goto op c).inflight = s.inflight := rfl
@[simp] theorem State.goto_resend (op : Op) (c : Ctl) : (s.goto op c).resend = s.resend := rfl
@[simp] theorem State.goto_cancel (op : Op) (c : Ctl) : (s.goto op c).cancel = s.cancel := rfl
@[simp] theorem State.goto_stValid (op : Op) (c : Ctl) : (s.goto op c).stValid = s.stValid := rfl
@[simp] theorem State.goto_st (op : Op) (c : Ctl) : (s.goto op c).st = s.st := rfl
@[simp] theorem State.goto_stCapt (op : Op) (c : Ctl) : (s.goto op c).stCapt = s.stCapt := rfl
@[simp] theorem State.goto_noticeq (op : Op) (c : Ctl) : (s.goto op c).noticeq = s.noticeq := rfl
@[simp] theorem State.goto_novf (op : Op) (c : Ctl) : (s.goto op c).novf = s.novf := rfl
@[simp] theorem State.goto_errCode (op : Op) (c : Ctl) : (s.goto op c).errCode = s.errCode := rfl
@[simp] theorem State.goto_errText (op : Op) (c : Ctl) : (s.goto op c).errText = s.errText := rfl
@[simp] theorem State.goto_port (op : Op) (c : Ctl) : (s.goto op c).port = s.port := rfl
@[simp] theorem State.goto_completion (op : Op) (c : Ctl) : (s.goto op c).completion = s.completion := rfl
@[simp] theorem State.goto_log (op : Op) (c : Ctl) : (s.goto op c).log = s.log := rfl
@[simp] theorem State.goto_par (op : Op) (c : Ctl) : (s.goto op c).par = s.par := rfl
@[simp] theorem State.goto_carrier (op : Op) (c : Ctl) : (s.goto op c).carrier = s.carrier := rfl
@[simp] theorem State.goto_job (op : Op) (c : Ctl) : (s.goto op c).job = s.job := rfl
@[simp] theorem State.goto_inputs (op : Op) (c : Ctl) : (s.goto op c).inputs = s.inputs := rfl

/-! ## linkUp -/

@[simp] theorem State.linkUp_variant : (s.linkUp).variant = s.variant := rfl
@[simp] theorem State.linkUp_ph : (s.linkUp).ph = s.ph := rfl
@[simp] theorem State.linkUp_link : (s.linkUp).link = true := rfl
@[simp] theorem State.linkUp_rxbuf : (s.linkUp).rxbuf = [] := rfl
@[simp] theorem State.linkUp_txout : (s.linkUp).txout = s.txout := rfl
@[simp] theorem State.linkUp_cur : (s.linkUp).cur = s.cur := rfl
@[simp] theorem State.linkUp_inflight : (s.linkUp).inflight = s.inflight := rfl
@[simp] theorem State.linkUp_resend : (s.linkUp).resend = s.resend := rfl
@[simp] theorem State.linkUp_cancel : (s.linkUp).cancel = s.cancel := rfl
@[simp] theorem State.linkUp_stValid : (s.linkUp).stValid = s.stValid := rfl
@[simp] theorem State.linkUp_st : (s.linkUp).st = s.st := rfl
@[simp] theorem State.linkUp_stCapt : (s.linkUp).stCapt = s.stCapt := rfl
@[simp] theorem State.linkUp_noticeq : (s.linkUp).noticeq = s.noticeq := rfl
@[simp] theorem State.linkUp_novf : (s.linkUp).novf = s.novf := rfl
@[simp] theorem State.linkUp_errCode : (s.linkUp).errCode = s.errCode := rfl
@[simp] theorem State.linkUp_errText : (s.linkUp).errText = s.errText := rfl
@[simp] theorem State.linkUp_port : (s.linkUp).port = s.port := rfl
@[simp] theorem State.linkUp_completion : (s.linkUp).completion = s.completion := rfl
@[simp] theorem State.linkUp_log : (s.linkUp).log = s.log := rfl
@[simp] theorem State.linkUp_par : (s.linkUp).par = s.par := rfl
@[simp] theorem State.linkUp_carrier : (s.linkUp).carrier = [] := rfl
@[simp] theorem State.linkUp_job : (s.linkUp).job = s.job := rfl
@[simp] theorem State.linkUp_inputs : (s.linkUp).inputs = s.inputs := rfl

/-! ## linkDown -/

@[simp] theorem State.linkDown_variant : (s.linkDown).variant = s.variant := rfl
@[simp] theorem State.linkDown_ph : (s.linkDown).ph = s.ph := rfl
@[simp] theorem State.linkDown_link : (s.linkDown).link = false := rfl
@[simp] theorem State.linkDown_rxbuf : (s.linkDown).rxbuf = s.rxbuf := rfl
@[simp] theorem State.linkDown_txout : (s.linkDown).txout = s.txout := rfl
@[simp] theorem State.linkDown_cur : (s.linkDown).cur = s.cur := rfl
@[simp] theorem State.linkDown_inflight : (s.linkDown).inflight = s.inflight := rfl
@[simp] theorem State.linkDown_resend : (s.linkDown).resend = s.resend := rfl
@[simp] theorem State.linkDown_cancel : (s.linkDown).cancel = s.cancel := rfl
@[simp] theorem State.linkDown_stValid : (s.linkDown).stValid = s.stValid := rfl
@[simp] theorem State.linkDown_st : (s.linkDown).st = s.st := rfl
@[simp] theorem State.linkDown_stCapt : (s.linkDown).stCapt = s.stCapt := rfl
@[simp] theorem State.linkDown_noticeq : (s.linkDown).noticeq = s.noticeq := rfl
@[simp] theorem State.linkDown_novf : (s.linkDown).novf = s.novf := rfl
@[simp] theorem State.linkDown_errCode : (s.linkDown).errCode = s.errCode := rfl
@[simp] theorem State.linkDown_errText : (s.linkDown).errText = s.errText := rfl
@[simp] theorem State.linkDown_port : (s.linkDown).port = s.port := rfl
@[simp] theorem State.linkDown_completion : (s.linkDown).completion = s.completion := rfl
@[simp] theorem State.linkDown_log : (s.linkDown).log = s.log := rfl
@[simp] theorem State.linkDown_par : (s.linkDown).par = s.par := rfl
@[simp] theorem State.linkDown_carrier : (s.linkDown).carrier = [] := rfl
@[simp] theorem State.linkDown_job : (s.linkDown).job = s.job := rfl
@[simp] theorem State.linkDown_inputs : (s.linkDown).inputs = s.inputs := rfl

/-! ## writeLine -/

@[simp] theorem State.writeLine_variant (u : Line) : (s.writeLine u).variant = s.variant := rfl
@[simp] theorem State.writeLine_ph (u : Line) : (s.writeLine u).ph = s.ph := rfl
@[simp] theorem State.writeLine_link (u : Line) : (s.writeLine u).link = s.link := rfl
@[simp] theorem State.writeLine_rxbuf (u : Line) : (s.writeLine u).rxbuf = s.rxbuf := rfl
@[simp] theorem State.writeLine_txout (u : Line) : (s.writeLine u).txout = s.txout ++ u ++ s.term := rfl
@[simp] theorem State.writeLine_cur (u : Line) : (s.writeLine u).cur = s.cur := rfl
@[simp] theorem State.writeLine_inflight (u : Line) : (s.writeLine u).inflight = s.inflight := rfl
@[simp] theorem State.writeLine_resend (u : Line) : (s.writeLine u).resend = s.resend := rfl
@[simp] theorem State.writeLine_cancel (u : Line) : (s.writeLine u).cancel = s.cancel := rfl
@[simp] theorem State.writeLine_stValid (u : Line) : (s.writeLine u).stValid = s.stValid := rfl
@[simp] theorem State.writeLine_st (u : Line) : (s.writeLine u).st = s.st := rfl
@[simp] theorem State.writeLine_stCapt (u : Line) : (s.writeLine u).stCapt = s.stCapt := rfl
@[simp] theorem State.writeLine_noticeq (u : Line) : (s.writeLine u).noticeq = s.noticeq := rfl
@[simp] theorem State.writeLine_novf (u : Line) : (s.writeLine u).novf = s.novf := rfl
@[simp] theorem State.writeLine_errCode (u : Line) : (s.writeLine u).errCode = s.errCode := rfl
@[simp] theorem State.writeLine_errText (u : Line) : (s.writeLine u).errText = s.errText := rfl
@[simp] theorem State.writeLine_port (u : Line) : (s.writeLine u).port = s.port := rfl
@[simp] theorem State.writeLine_completion (u : Line) : (s.writeLine u).completion = s.completion := rfl
@[simp] theorem State.writeLine_log (u : Line) : (s.writeLine u).log = s.log ++ [⟨.tx, .line u⟩] := rfl
@[simp] theorem State.writeLine_par (u : Line) : (s.writeLine u).par = s.par := rfl
@[simp] theorem State.writeLine_carrier (u : Line) : (s.writeLine u).carrier = s.carrier := rfl
@[simp] theorem State.writeLine_job (u : Line) : (s.writeLine u).job = s.job := rfl
@[simp] theorem State.writeLine_inputs (u : Line) : (s.writeLine u).inputs = s.inputs := rfl

/-! ## captured -/

@[simp] theorem State.captured_variant (u : Line) (rep : StatusReport) : (s.captured u rep).variant = s.variant := rfl
@[simp] theorem State.captured_ph (u : Line) (rep : StatusReport) : (s.captured u rep).ph = s.ph := rfl
@[simp] theorem State.captured_link (u : Line) (rep : StatusReport) : (s.captured u rep).link = s.link := rfl
@[simp] theorem State.captured_rxbuf (u : Line) (rep : StatusReport) : (s.captured u rep).rxbuf = s.rxbuf := rfl
@[simp] theorem State.captured_txout (u : Line) (rep : StatusReport) : (s.captured u rep).txout = s.txout := rfl
@[simp] theorem State.captured_cur (u : Line) (rep : StatusReport) : (s.captured u rep).cur = s.cur := rfl
@[simp] theorem State.captured_inflight (u : Line) (rep : StatusReport) : (s.captured u rep).inflight = s.inflight := rfl
@[simp] theorem State.captured_resend (u : Line) (rep : StatusReport) : (s.captured u rep).resend = s.resend := rfl
@[simp] theorem State.captured_cancel (u : Line) (rep : StatusReport) : (s.captured u rep).cancel = s.cancel := rfl
@[simp] theorem State.captured_stValid (u : Line) (rep : StatusReport) : (s.captured u rep).stValid = true := rfl
@[simp] theorem State.captured_st (u : Line) (rep : StatusReport) : (s.captured u rep).st = rep := rfl
@[simp] theorem State.captured_stCapt (u : Line) (rep : StatusReport) : (s.captured u rep).stCapt = true := rfl
@[simp] theorem State.captured_noticeq (u : Line) (rep : StatusReport) : (s.captured u rep).noticeq = s.noticeq := rfl
@[simp] theorem State.captured_novf (u : Line) (rep : StatusReport) : (s.captured u rep).novf = s.novf := rfl
@[simp] theorem State.captured_errCode (u : Line) (rep : StatusReport) : (s.captured u rep).errCode = s.errCode := rfl
@[simp] theorem State.captured_errText (u : Line) (rep : StatusReport) : (s.captured u rep).errText = s.errText := rfl
@[simp] theorem State.captured_port (u : Line) (rep : StatusReport) : (s.captured u rep).port = s.port := rfl
@[simp] theorem State.captured_completion (u : Line) (rep : StatusReport) : (s.captured u rep).completion = s.completion := rfl
@[simp] theorem State.captured_log (u : Line) (rep : StatusReport) : (s.captured u rep).log = s.log ++ [⟨.status, .line u⟩] := rfl
@[simp] theorem State.captured_par (u : Line) (rep : StatusReport) : (s.captured u rep).par = s.par := rfl
@[simp] theorem State.captured_carrier (u : Line) (rep : StatusReport) : (s.captured u rep).carrier = s.carrier := rfl
@[simp] theorem State.captured_job (u : Line) (rep : StatusReport) : (s.captured u rep).job = s.job := rfl
@[simp] theorem State.captured_inputs (u : Line) (rep : StatusReport) : (s.captured u rep).inputs = s.inputs := rfl

/-! ## reinit -/

@[simp] theorem State.reinit_variant : (s.reinit).variant = s.variant := rfl
@[simp] theorem State.reinit_ph : (s.reinit).ph = s.ph := rfl
@[simp] theorem State.reinit_link : (s.reinit).link = s.link := rfl
@[simp] theorem State.reinit_rxbuf : (s.reinit).rxbuf = [] := rfl
@[simp] theorem State.reinit_txout : (s.reinit).txout = s.txout := rfl
@[simp] theorem State.reinit_cur : (s.reinit).cur = [] := rfl
@[simp] theorem State.reinit_inflight : (s.reinit).inflight = false := rfl
@[simp] theorem State.reinit_resend : (s.reinit).resend = false := rfl
@[simp] theorem State.reinit_cancel : (s.reinit).cancel = s.cancel := rfl
@[simp] theorem State.reinit_stValid : (s.reinit).stValid = false := rfl
@[simp] theorem State.reinit_st : (s.reinit).st = s.st := rfl
@[simp] theorem State.reinit_stCapt : (s.reinit).stCapt = false := rfl
@[simp] theorem State.reinit_noticeq : (s.reinit).noticeq = [] := rfl
@[simp] theorem State.reinit_novf : (s.reinit).novf = false := rfl
@[simp] theorem State.reinit_errCode : (s.reinit).errCode = 0 := rfl
@[simp] theorem State.reinit_errText : (s.reinit).errText = .line [] := rfl
@[simp] theorem State.reinit_port : (s.reinit).port = s.port := rfl
@[simp] theorem State.reinit_completion : (s.reinit).completion = s.completion := rfl
@[simp] theorem State.reinit_log : (s.reinit).log = s.log := rfl
@[simp] theorem State.reinit_par : (s.reinit).par = s.par := rfl
@[simp] theorem State.reinit_carrier : (s.reinit).carrier = s.carrier := rfl
@[simp] theorem State.reinit_job : (s.reinit).job = s.job := rfl
@[simp] theorem State.reinit_inputs : (s.reinit).inputs = s.inputs := rfl

/-! ## complete -/

@[simp] theorem State.complete_variant (c : Completion) : (s.complete c).variant = s.variant := rfl
@[simp] theorem State.complete_ph (c : Completion) : (s.complete c).ph = s.ph.afterCompletion := rfl
@[simp] theorem State.complete_link (c : Completion) : (s.complete c).link = s.link := rfl
@[simp] theorem State.complete_rxbuf (c : Completion) : (s.complete c).rxbuf = s.rxbuf := rfl
@[simp] theorem State.complete_txout (c : Completion) : (s.complete c).txout = s.txout := rfl
@[simp] theorem State.complete_cur (c : Completion) : (s.complete c).cur = s.cur := rfl
@[simp] theorem State.complete_inflight (c : Completion) : (s.complete c).inflight = s.inflight := rfl
@[simp] theorem State.complete_resend (c : Completion) : (s.complete c).resend = s.resend := rfl
@[simp] theorem State.complete_cancel (c : Completion) : (s.complete c).cancel = s.cancel := rfl
@[simp] theorem State.complete_stValid (c : Completion) : (s.complete c).stValid = s.stValid := rfl
@[simp] theorem State.complete_st (c : Completion) : (s.complete c).st = s.st := rfl
@[simp] theorem State.complete_stCapt (c : Completion) : (s.complete c).stCapt = s.stCapt := rfl
@[simp] theorem State.complete_noticeq (c : Completion) : (s.complete c).noticeq = s.noticeq := rfl
@[simp] theorem State.complete_novf (c : Completion) : (s.complete c).novf = s.novf := rfl
@[simp] theorem State.complete_errCode (c : Completion) : (s.complete c).errCode = s.errCode := rfl
@[simp] theorem State.complete_errText (c : Completion) : (s.complete c).errText = s.errText := rfl
@[simp] theorem State.complete_port (c : Completion) : (s.complete c).port = s.port := rfl
@[simp] theorem State.complete_completion (c : Completion) : (s.complete c).completion = some c := rfl
@[simp] theorem State.complete_log (c : Completion) : (s.complete c).log = s.log := rfl
@[simp] theorem State.complete_par (c : Completion) : (s.complete c).par = s.par := rfl
@[simp] theorem State.complete_carrier (c : Completion) : (s.complete c).carrier = s.carrier := rfl
@[simp] theorem State.complete_job (c : Completion) : (s.complete c).job = s.job := rfl
@[simp] theorem State.complete_inputs (c : Completion) : (s.complete c).inputs = s.inputs := rfl

/-! ## accept -/

@[simp] theorem State.accept_variant (op : Op) : (s.accept op).variant = s.variant := rfl
@[simp] theorem State.accept_ph (op : Op) : (s.accept op).ph = .busy op .start := rfl
@[simp] theorem State.accept_link (op : Op) : (s.accept op).link = s.link := rfl
@[simp] theorem State.accept_rxbuf (op : Op) : (s.accept op).rxbuf = s.rxbuf := rfl
@[simp] theorem State.accept_txout (op : Op) : (s.accept op).txout = s.txout := rfl
@[simp] theorem State.accept_cur (op : Op) : (s.accept op).cur = s.cur := rfl
@[simp] theorem State.accept_inflight (op : Op) : (s.accept op).inflight = s.inflight := rfl
@[simp] theorem State.accept_resend (op : Op) : (s.accept op).resend = s.resend := rfl
@[simp] theorem State.accept_cancel (op : Op) : (s.accept op).cancel = false := rfl
@[simp] theorem State.accept_stValid (op : Op) : (s.accept op).stValid = s.stValid := rfl
@[simp] theorem State.accept_st (op : Op) : (s.accept op).st = s.st := rfl
@[simp] theorem State.accept_stCapt (op : Op) : (s.accept op).stCapt = s.stCapt := rfl
@[simp] theorem State.accept_noticeq (op : Op) : (s.accept op).noticeq = s.noticeq := rfl
@[simp] theorem State.accept_novf (op : Op) : (s.accept op).novf = s.novf := rfl
@[simp] theorem State.accept_errCode (op : Op) : (s.accept op).errCode = s.errCode := rfl
@[simp] theorem State.accept_errText (op : Op) : (s.accept op).errText = s.errText := rfl
@[simp] theorem State.accept_port (op : Op) : (s.accept op).port = s.port := rfl
@[simp] theorem State.accept_completion (op : Op) : (s.accept op).completion = none := rfl
@[simp] theorem State.accept_log (op : Op) : (s.accept op).log = s.log := rfl
@[simp] theorem State.accept_par (op : Op) : (s.accept op).par = s.par := rfl
@[simp] theorem State.accept_carrier (op : Op) : (s.accept op).carrier = s.carrier := rfl
@[simp] theorem State.accept_job (op : Op) : (s.accept op).job = s.job := rfl
@[simp] theorem State.accept_inputs (op : Op) : (s.accept op).inputs = s.inputs := rfl

/-! ## raise -/

@[simp] theorem State.raise_variant (e : ErrCode) (r : Received) : (s.raise e r).variant = s.variant := rfl
@[simp] theorem State.raise_ph (e : ErrCode) (r : Received) : (s.raise e r).ph = .faulted := rfl
@[simp] theorem State.raise_link (e : ErrCode) (r : Received) : (s.raise e r).link = false := rfl
@[simp] theorem State.raise_rxbuf (e : ErrCode) (r : Received) : (s.raise e r).rxbuf = s.rxbuf := rfl
@[simp] theorem State.raise_txout (e : ErrCode) (r : Received) : (s.raise e r).txout = s.txout := rfl
@[simp] theorem State.raise_cur (e : ErrCode) (r : Received) : (s.raise e r).cur = s.cur := rfl
@[simp] theorem State.raise_inflight (e : ErrCode) (r : Received) : (s.raise e r).inflight = false := rfl
@[simp] theorem State.raise_resend (e : ErrCode) (r : Received) : (s.raise e r).resend = s.resend := rfl
@[simp] theorem State.raise_cancel (e : ErrCode) (r : Received) : (s.raise e r).cancel = s.cancel := rfl
@[simp] theorem State.raise_stValid (e : ErrCode) (r : Received) : (s.raise e r).stValid = s.stValid := rfl
@[simp] theorem State.raise_st (e : ErrCode) (r : Received) : (s.raise e r).st = s.st := rfl
@[simp] theorem State.raise_stCapt (e : ErrCode) (r : Received) : (s.raise e r).stCapt = s.stCapt := rfl
@[simp] theorem State.raise_noticeq (e : ErrCode) (r : Received) : (s.raise e r).noticeq = s.noticeq := rfl
@[simp] theorem State.raise_novf (e : ErrCode) (r : Received) : (s.raise e r).novf = s.novf := rfl
@[simp] theorem State.raise_errCode (e : ErrCode) (r : Received) : (s.raise e r).errCode = e.code := rfl
@[simp] theorem State.raise_errText (e : ErrCode) (r : Received) : (s.raise e r).errText = r := rfl
@[simp] theorem State.raise_port (e : ErrCode) (r : Received) : (s.raise e r).port = s.port := rfl
@[simp] theorem State.raise_completion (e : ErrCode) (r : Received) : (s.raise e r).completion = s.fatalRecord e r := rfl
@[simp] theorem State.raise_log (e : ErrCode) (r : Received) : (s.raise e r).log = s.log ++ [⟨.error, r⟩] := rfl
@[simp] theorem State.raise_par (e : ErrCode) (r : Received) : (s.raise e r).par = s.par := rfl
@[simp] theorem State.raise_carrier (e : ErrCode) (r : Received) : (s.raise e r).carrier = [] := rfl
@[simp] theorem State.raise_job (e : ErrCode) (r : Received) : (s.raise e r).job = s.job := rfl
@[simp] theorem State.raise_inputs (e : ErrCode) (r : Received) : (s.raise e r).inputs = s.inputs := rfl

/-! ## push -/

@[simp] theorem State.push_variant (u : Line) : (s.push u).variant = s.variant := by unfold State.push; split <;> rfl
@[simp] theorem State.push_ph (u : Line) : (s.push u).ph = s.ph := by unfold State.push; split <;> rfl
@[simp] theorem State.push_link (u : Line) : (s.push u).link = s.link := by unfold State.push; split <;> rfl
@[simp] theorem State.push_rxbuf (u : Line) : (s.push u).rxbuf = s.rxbuf := by unfold State.push; split <;> rfl
@[simp] theorem State.push_txout (u : Line) : (s.push u).txout = s.txout := by unfold State.push; split <;> rfl
@[simp] theorem State.push_cur (u : Line) : (s.push u).cur = s.cur := by unfold State.push; split <;> rfl
@[simp] theorem State.push_inflight (u : Line) : (s.push u).inflight = s.inflight := by unfold State.push; split <;> rfl
@[simp] theorem State.push_resend (u : Line) : (s.push u).resend = s.resend := by unfold State.push; split <;> rfl
@[simp] theorem State.push_cancel (u : Line) : (s.push u).cancel = s.cancel := by unfold State.push; split <;> rfl
@[simp] theorem State.push_stValid (u : Line) : (s.push u).stValid = s.stValid := by unfold State.push; split <;> rfl
@[simp] theorem State.push_st (u : Line) : (s.push u).st = s.st := by unfold State.push; split <;> rfl
@[simp] theorem State.push_stCapt (u : Line) : (s.push u).stCapt = s.stCapt := by unfold State.push; split <;> rfl
@[simp] theorem State.push_errCode (u : Line) : (s.push u).errCode = s.errCode := by unfold State.push; split <;> rfl
@[simp] theorem State.push_errText (u : Line) : (s.push u).errText = s.errText := by unfold State.push; split <;> rfl
@[simp] theorem State.push_port (u : Line) : (s.push u).port = s.port := by unfold State.push; split <;> rfl
@[simp] theorem State.push_completion (u : Line) : (s.push u).completion = s.completion := by unfold State.push; split <;> rfl
@[simp] theorem State.push_par (u : Line) : (s.push u).par = s.par := by unfold State.push; split <;> rfl
@[simp] theorem State.push_carrier (u : Line) : (s.push u).carrier = s.carrier := by unfold State.push; split <;> rfl
@[simp] theorem State.push_job (u : Line) : (s.push u).job = s.job := by unfold State.push; split <;> rfl
@[simp] theorem State.push_inputs (u : Line) : (s.push u).inputs = s.inputs := by unfold State.push; split <;> rfl

/-- The terminator is a function of the variant (R12). -/
theorem State.term_eq : s.term = s.variant.term.bytes := rfl

end Sys2Proof.Machine
end

