-- ==== Sys2Proof/Laws/Ops.lean ====
section
/-!
SUPPORT. For each shared operation of Machine/Ops.lean one lemma that says everything it can do (R140, R150, R241, R56).
-/

namespace Sys2Proof.Machine

/-! ## Acceptance and completion -/

/-- The checks of R140 all pass exactly when the phase admits the operation, the variant has it and its operand is good. -/
theorem rejection_eq_none {op : Op} {ok : Bool} {s : State} :
    rejection op ok s = none ↔ op.admits s.ph = true ∧ op.variantOk s.variant = true ∧ ok = true := by
  unfold rejection
  cases op.admits s.ph <;> cases op.variantOk s.variant <;> cases ok <;> simp

/-- Everything presenting an operation can do: nothing while busy, a rejection record, or its body from the accepted state. -/
theorem present_cases (op : Op) (ok : Bool) (s : State) (body : State → State) :
    (s.ph.isBusy = true ∧ present op ok s body = s) ∨
    (s.ph.isBusy = false ∧ ∃ r, rejection op ok s = some r ∧
      present op ok s body = { s with completion := some (.rejected r) }) ∨
    (s.ph.isBusy = false ∧ rejection op ok s = none ∧ present op ok s body = body (s.accept op)) := by
  unfold present
  cases hb : s.ph.isBusy with
  | true => exact .inl ⟨rfl, by simp⟩
  | false =>
    cases hr : rejection op ok s with
    | some r =>
      refine .inr (.inl ⟨rfl, r, rfl, ?_⟩)
      cases hp : s.ph <;> simp_all [State.complete, Phase.afterCompletion, Phase.isBusy]
    | none => exact .inr (.inr ⟨rfl, rfl, by simp⟩)

/-- An operation that its phase, its variant and its operand admit runs its body. -/
theorem present_accepted {op : Op} {ok : Bool} {s : State} (body : State → State) (hp : op.admits s.ph = true)
    (hv : op.variantOk s.variant = true) (ho : ok = true) : present op ok s body = body (s.accept op) := by
  have hb : s.ph.isBusy = false := by
    cases h : s.ph <;> simp_all only [Phase.isBusy] <;> cases op <;> simp_all [Op.admits]
  simp [present, hb, rejection_eq_none.mpr ⟨hp, hv, ho⟩]

/-- Outside an executing operation a record changes nothing else (R151, R251). -/
theorem complete_idle {s : State} (c : Completion) (h : s.ph.isBusy = false) :
    s.complete c = { s with completion := some c } := by
  cases hp : s.ph <;> simp_all [State.complete, Phase.afterCompletion, Phase.isBusy]

/-! ## Notices, cancel points -/

/-- Everything `push` can do (R150). -/
theorem push_cases (s : State) (t : Line) :
    (s.noticeRoom = true ∧ s.push t = { s with noticeq := s.noticeq ++ [t], log := s.log ++ [⟨.notice, .line t⟩] }) ∨
    (s.noticeRoom = false ∧ s.push t = { s with novf := true, log := s.log ++ [⟨.discarded, .line t⟩] }) := by
  unfold State.push
  cases s.noticeRoom <;> simp

/-- Everything a cancel point can do (R241). -/
theorem cancelPoint_cases (s goOn : State) :
    (s.cancel = true ∧
      cancelPoint s goOn = { s with cancel := false, completion := some .cancelled, ph := s.ph.afterCompletion }) ∨
    (s.cancel = false ∧ cancelPoint s goOn = goOn) := by
  unfold cancelPoint
  cases s.cancel <;> simp [State.clearCancel, State.complete]

/-! ## Arrival -/

/-- Everything an arrival of bytes can do: a leading part `a` of them is appended; the others, if any, met a full buffer, and are
held back behind a complete line or overrun the buffer (R56). -/
theorem arrive_cases (d : Line) (s : State) :
    (arrive d s = { s with rxbuf := s.rxbuf ++ d }) ∨
    (∃ a b, d = a ++ b ∧ b ≠ [] ∧ s.par.rxLineMax ≠ none ∧ hasLine s.term (s.rxbuf ++ a) = true ∧
      arrive d s = { s with rxbuf := s.rxbuf ++ a, carrier := b }) ∨
    (∃ a b, d = a ++ b ∧ b ≠ [] ∧ s.par.rxLineMax ≠ none ∧ hasLine s.term (s.rxbuf ++ a) = false ∧
      arrive d s = ({ s with rxbuf := s.rxbuf ++ a } : State).raise .rxOverrun (.line [])) := by
  induction d generalizing s with
  | nil => exact .inl (by simp [arrive])
  | cons x xs ih =>
    unfold arrive
    by_cases hf : s.rxFull = true
    · have hm : s.par.rxLineMax ≠ none := by
        intro h
        simp [State.rxFull, h] at hf
      by_cases hl : hasLine s.term s.rxbuf = true
      · exact .inr (.inl ⟨[], x :: xs, rfl, by simp, hm, by simpa using hl, by simp [hf, hl]⟩)
      · exact .inr (.inr ⟨[], x :: xs, rfl, by simp, hm, by simpa using hl, by simp [hf, hl]⟩)
    · rw [if_neg hf]
      rcases ih { s with rxbuf := s.rxbuf ++ [x] } with h | ⟨a, b, rfl, hb, hm, hl, h⟩ | ⟨a, b, rfl, hb, hm, hl, h⟩
      · exact .inl (by rw [h]; simp)
      · exact .inr (.inl ⟨x :: a, b, rfl, hb, hm, by simpa [State.term] using hl, by rw [h]; simp⟩)
      · exact .inr (.inr ⟨x :: a, b, rfl, hb, hm, by simpa [State.term] using hl, by rw [h]; simp⟩)

/-- An arrival leaves at most `RX_LINE_MAX` bytes in RXBUF (R15). -/
theorem arrive_length {d : Line} {s : State} {m : Nat} (hm : s.par.rxLineMax = some m) (hs : s.rxbuf.length ≤ m) :
    (arrive d s).rxbuf.length ≤ m := by
  induction d generalizing s with
  | nil => simpa [arrive] using hs
  | cons x xs ih =>
    unfold arrive
    split
    · split <;> simpa using hs
    · rename_i hf
      refine ih (s := { s with rxbuf := s.rxbuf ++ [x] }) hm ?_
      simp [State.rxFull, hm] at hf
      simp
      omega

/-- With an unbounded RXBUF every byte is appended (R102). -/
theorem arrive_unbounded {d : Line} {s : State} (hm : s.par.rxLineMax = none) :
    arrive d s = { s with rxbuf := s.rxbuf ++ d } := by
  rcases arrive_cases d s with h | ⟨_, _, _, _, h, _⟩ | ⟨_, _, _, _, h, _⟩
  · exact h
  · exact absurd hm h
  · exact absurd hm h

/-- A leading part of an arrival that has room is appended, and the rest arrives behind it (R102). -/
theorem arrive_append {a b : Line} {s : State} (h : ∀ m, s.par.rxLineMax = some m → s.rxbuf.length + a.length ≤ m) :
    arrive (a ++ b) s = arrive b { s with rxbuf := s.rxbuf ++ a } := by
  induction a generalizing s with
  | nil => simp
  | cons x xs ih =>
    have hf : s.rxFull = false := by
      unfold State.rxFull
      split
      · rfl
      · rename_i m hm
        have := h m hm
        simp at this ⊢
        omega
    rw [List.cons_append, arrive, hf, if_neg (by simp), ih (s := { s with rxbuf := s.rxbuf ++ [x] })]
    · simp
    · intro m hm
      have := h m hm
      simp at this ⊢
      omega

/-- An arrival that has room is appended (R102). -/
theorem arrive_room {d : Line} {s : State} (h : ∀ m, s.par.rxLineMax = some m → s.rxbuf.length + d.length ≤ m) :
    arrive d s = { s with rxbuf := s.rxbuf ++ d } := by
  have := arrive_append (b := []) h
  rwa [List.append_nil] at this

/-- Bytes held back arrive before what the device sends (R56; log 8). -/
theorem deviceSends_carrier {s : State} (d : Line) (h : s.link = true) :
    s.deviceSends d = arrive (s.carrier ++ d) { s with carrier := [] } := by
  rw [State.deviceSends, if_pos h]

/-- While the link is down what the device sends is lost (R55). -/
theorem deviceSends_down {s : State} (d : Line) (h : s.link = false) : s.deviceSends d = s := by
  rw [State.deviceSends, if_neg (by simp [h])]

/-- Two arrivals in a row are one: the second goes behind what the first left held back (R44). -/
theorem arrive_deviceSends (d e : Line) {s : State} (hl : s.link = true) (hc : s.carrier = []) :
    (arrive d s).deviceSends e = arrive (d ++ e) s := by
  induction d generalizing s with
  | nil =>
    rw [arrive, deviceSends_carrier e hl, hc]
    rcases s with ⟨_, ⟨_, carrier, _, _⟩⟩
    cases hc
    rfl
  | cons x xs ih =>
    rw [List.cons_append, arrive, arrive]
    by_cases hf : s.rxFull = true
    · rw [if_pos hf, if_pos hf]
      by_cases ht : hasLine s.term s.rxbuf = true
      · rw [if_pos ht, if_pos ht, deviceSends_carrier (s := { s with carrier := x :: xs }) e hl]
        have hf' : ({ s with carrier := [] } : State).rxFull = true := hf
        have ht' : hasLine ({ s with carrier := [] } : State).term ({ s with carrier := [] } : State).rxbuf = true := ht
        rw [List.cons_append, arrive, if_pos hf', if_pos ht']
      · rw [if_neg ht, if_neg ht]
        exact deviceSends_down e rfl
    · rw [if_neg hf, if_neg hf]
      exact ih hl hc

/-- Chunking does not show (R44, R102). -/
theorem deviceSends_deviceSends (s : State) (d e : Line) : (s.deviceSends d).deviceSends e = s.deviceSends (d ++ e) := by
  by_cases hl : s.link = true
  · rw [deviceSends_carrier d hl, deviceSends_carrier (d ++ e) hl, ← List.append_assoc]
    exact arrive_deviceSends _ e hl rfl
  · have hl' : s.link = false := by simpa using hl
    rw [deviceSends_down d hl', deviceSends_down e hl', deviceSends_down (d ++ e) hl']

/-- Everything `deviceSends` can do: nothing, or, while the link is up, a leading part `x` of what was held back and of the new bytes
is appended, and the others are held back or overrun RXBUF (R55, R56, R102). -/
theorem deviceSends_cases (s : State) (d : Line) :
    s.deviceSends d = s ∨
    (s.link = true ∧ ∃ x k, s.carrier ++ d = x ++ k ∧
      (s.deviceSends d = { s with rxbuf := s.rxbuf ++ x, carrier := k } ∨
        s.deviceSends d = ({ s with rxbuf := s.rxbuf ++ x } : State).raise .rxOverrun (.line []))) := by
  by_cases hl : s.link = true
  · refine .inr ⟨hl, ?_⟩
    rw [deviceSends_carrier d hl]
    rcases arrive_cases (s.carrier ++ d) { s with carrier := [] } with h | ⟨a, b, e, _, _, _, h⟩ | ⟨a, b, e, _, _, _, h⟩ <;> rw [h]
    · exact ⟨_, [], by simp, .inl rfl⟩
    · exact ⟨a, b, e, .inl rfl⟩
    · exact ⟨a, b, e, .inr rfl⟩
  · exact .inl (deviceSends_down d (by simpa using hl))

end Sys2Proof.Machine
end

