-- ==== Sys2Proof/Laws/Receive.lean ====
section
/-!
SUPPORT. Executing a class row is receiving the line (R49, R71, R73 to R75).
-/

namespace Sys2Proof.Machine

/-- A raw line of Grbl class `c` is dealt with by `receive`. -/
theorem receiveGrbl_class (raw : Line) (s : State) :
    receiveGrbl (grblClass (.ofRaw raw)) raw s = receive raw s := by
  unfold receiveGrbl
  split
  · rename_i h
    simp only [receive, h, deliver]
  · rename_i h
    simp only [receive, h, deliver]
  · rfl

/-- A raw line of Trinus class `c` is dealt with by `receive`. -/
theorem receiveTrinus_class (raw : Line) (s : State) :
    receiveTrinus (trinusClass (.ofRaw raw)) raw s = receive raw s := by
  unfold receiveTrinus
  split
  · rename_i h
    simp only [receive, h, deliver]
  · rfl

/-- A raw line of Marlin class `c` is dealt with by `receive`. -/
theorem receiveMarlin_class (raw : Line) (s : State) :
    receiveMarlin (marlinClass (.ofRaw raw)) raw s = receive raw s := by
  unfold receiveMarlin
  split
  · rename_i h
    simp only [receive, h, deliver]
  · rfl

/-- Executing the class of a raw line is receiving the line: where a loop reads, the row's effect is the loop's (R49, R71). -/
theorem exec_classify (v : Variant) (raw : Line) (s : State) :
    exec (classify v raw) s = .next (receive raw s) := by
  have hg := grblClass_received (.ofRaw raw)
  have ht := trinusClass_received (.ofRaw raw)
  have hm := marlinClass_received (.ofRaw raw)
  rw [← receiveGrbl_class raw s]
  have grbl : exec (classify .grbl09 raw) s = .next (receiveGrbl (grblClass (.ofRaw raw)) raw s) := by
    unfold classify
    dsimp only
    split <;> rename_i hc <;> rw [hc] at hg
    · have := ofRaw_eq_line hg.symm
      subst this
      simp only [exec, execGNotice, hc]
    · have := ofRaw_eq_line hg.symm
      subst this
      simp only [exec, execGStatus, hc]
    · have := ofRaw_eq_line hg.symm
      simp only [exec, execGOk, hc, this]
    · simp only [GClass.received] at hg
      simp only [exec, execGOther, hc, hg]
  cases v with
  | grbl09 => exact grbl
  | grbl11 => exact grbl
  | trinus =>
    rw [receiveGrbl_class, ← receiveTrinus_class]
    unfold classify
    dsimp only
    split <;> rename_i hc <;> rw [hc] at ht
    · have := ofRaw_eq_line ht.symm
      simp only [exec, execTCkerr, hc, this]
    · have := ofRaw_eq_line ht.symm
      subst this
      simp only [exec, execTError, hc]
    · have := ofRaw_eq_line ht.symm
      subst this
      simp only [exec, execTInfo, hc]
    · have := ofRaw_eq_line ht.symm
      simp only [exec, execTOk, hc, this]
    · simp only [TClass.received] at ht
      simp only [exec, execTOther, hc, ht]
  | marlin =>
    rw [receiveGrbl_class, ← receiveMarlin_class]
    unfold classify
    dsimp only
    split <;> rename_i hc <;> rw [hc] at hm
    · have := ofRaw_eq_line hm.symm
      subst this
      simp only [exec, execMInfo, hc]
    · have := ofRaw_eq_line hm.symm
      simp only [exec, execMOk, hc, this]
    · simp only [MClass.received] at hm
      simp only [exec, execMOther, hc, hm]

/-- Everything a received line can do to the read at position `c` of operation `op` (R73 to R75, R111, R142, R185, R186, R202,
R217). -/
inductive Delivered (op : Op) (raw : Line) (s : State) : Ctl → State → Prop where
  /-- Dropped, in the drain, in a status acquisition or in a receive loop; the loop comes round. -/
  | dropped (l : Loop) (k : LogClass) (hk : k = .discarded ∨ k = .ignored)
      (hl : ∀ m, l ≠ .ack m) : Delivered op raw s (.read l) ((s.logged k (.ofRaw raw)).goto op (.top l))
  /-- A notice (R150); the loop comes round. -/
  | notice (l : Loop) (hl : l ≠ .drain) : Delivered op raw s (.read l) ((s.push raw).goto op (.top l))
  /-- A report taken in the acknowledgment loop (R171). -/
  | absorbed (l : Line) (rep : StatusReport) (hp : parseStatus s.variant raw = some rep) :
      Delivered op raw s (.read (.ack l)) ((s.captured raw rep).goto op (.top (.ack l)))
  /-- A report that ends STATUS, or a WAITST whose predicate holds (R176, R183). -/
  | answered (k : AcqUse) (rep : StatusReport) (hp : parseStatus s.variant raw = some rep)
      (hk : k = .status ∨ ∃ p, k = .waitst p ∧ holds p rep = true) :
      Delivered op raw s (.read (.acq k)) ((s.captured raw rep).complete (.ok (.report rep)))
  /-- A report on which the predicate fails (R181). -/
  | again (k : AcqUse) (rep : StatusReport) (hp : parseStatus s.variant raw = some rep) (hk : k ≠ .status) :
      Delivered op raw s (.read (.acq k)) ((s.captured raw rep).goto op (.sleepTop k))
  /-- A report that passes the gate (R184). -/
  | passed (l : Line) (rep : StatusReport) (hp : parseStatus s.variant raw = some rep)
      (hg : holds (gatePred s.variant l) rep = true) :
      Delivered op raw s (.read (.acq (.gate l))) (sendGrbl op l (s.captured raw rep))
  /-- A fatal error (R231 to R233). -/
  | fatal (l : Loop) (e : ErrCode) (he : e ≠ .rxOverrun) (hl : l ≠ .drain ∧ l ≠ .recvMarlin) :
      Delivered op raw s (.read l) (s.raise e (.ofRaw raw))
  /-- The Trinus checksum-error text (R202). -/
  | marked (ht : raw = ckerrText) : Delivered op raw s (.read .recvTrinus) (s.setResend.goto op (.top .recvTrinus))
  /-- The acknowledgment of a round that asks for a resend (R203). -/
  | resent (ht : raw = okText) (hr : s.resend = true) : Delivered op raw s (.read .recvTrinus) (sendTrinus op s)
  /-- The terminal acknowledgment. -/
  | acked (l : Loop) (ht : raw = okText)
      (ha : (∃ m, l = .ack m ∧ m ∉ s.par.pgmEnd) ∨ (l = .recvTrinus ∧ s.resend = false) ∨ l = .recvMarlin) :
      Delivered op raw s (.read l) (s.clearInflight.complete (.ok (.text okText)))
  /-- The terminal acknowledgment of a program end (R186). -/
  | programEnd (l : Line) (ht : raw = okText) (hl : l ∈ s.par.pgmEnd) :
      Delivered op raw s (.read (.ack l)) (s.clearInflight.goto op (.pgmEnd 4))
  /-- One of the program-end reads, not the last. -/
  | counted (n : Nat) (hn : 2 ≤ n) :
      Delivered op raw s (.pgmEnd n) ((s.logged .discarded (.ofRaw raw)).goto op (.pgmEnd (n - 1)))
  /-- The last of the program-end reads. -/
  | ended (n : Nat) (hn : n ≤ 1) :
      Delivered op raw s (.pgmEnd n) ((s.logged .discarded (.ofRaw raw)).complete (.ok (.text okText)))
  /-- RDLINE's line (R111). -/
  | answer (c : Completion) (hc : (isText raw = false ∧ c = .badline) ∨ (isText raw = true ∧ c = .ok (.text raw))) :
      Delivered op raw s .rdline (s.complete c)

/-- A received text is the raw line, and a text. -/
theorem line_eq_ofRaw {raw t : Line} (h : Received.line t = .ofRaw raw) : t = raw ∧ Received.line t = .ofRaw raw :=
  ⟨ofRaw_eq_line h.symm, h⟩

/-- What `deliver` gives to a read is one of `Delivered`. -/
theorem deliver_cases (op : Op) {c : Ctl} (raw : Line) (s : State) (hc : c.reads = true) :
    Delivered op raw s c (deliver op c raw s) := by
  have hg := grblClass_received (.ofRaw raw)
  have ht := trinusClass_received (.ofRaw raw)
  have hm := marlinClass_received (.ofRaw raw)
  cases c with
  | read l =>
    cases l with
    | drain => exact .dropped _ _ (.inl rfl) (by simp)
    | acq k =>
      unfold deliver
      dsimp only
      unfold inAcq
      split <;> rename_i hk <;> rw [hk] at hg
      · obtain ⟨rfl, _⟩ := line_eq_ofRaw hg
        exact .notice _ (by simp)
      · obtain ⟨rfl, hr⟩ := line_eq_ofRaw hg
        split
        · rw [hr]
          exact .fatal _ _ (by simp) (by simp)
        · rename_i rep hp
          unfold acquired
          split
          · exact .answered _ _ hp (.inl rfl)
          · rename_i p
            split
            · rename_i hh
              exact .answered _ _ hp (.inr ⟨p, rfl, hh⟩)
            · exact .again _ _ hp (by simp)
          · split
            · rename_i hh
              exact .passed _ _ hp hh
            · exact .again _ _ hp (by simp)
      · rw [(line_eq_ofRaw hg).2]
        exact .dropped _ _ (.inl rfl) (by simp)
      · simp only [GClass.received] at hg
        rw [hg]
        exact .dropped _ _ (.inl rfl) (by simp)
    | ack l =>
      unfold deliver
      dsimp only
      unfold inAck
      split <;> rename_i hk <;> rw [hk] at hg
      · obtain ⟨rfl, _⟩ := line_eq_ofRaw hg
        exact .notice _ (by simp)
      · obtain ⟨rfl, hr⟩ := line_eq_ofRaw hg
        split
        · rw [hr]
          exact .fatal _ _ (by simp) (by simp)
        · rename_i hp
          exact .absorbed _ _ hp
      · unfold Machine.acked
        split
        · rename_i h
          exact .programEnd _ (line_eq_ofRaw hg).1.symm (by simpa using h)
        · rename_i h
          exact .acked _ (line_eq_ofRaw hg).1.symm (.inl ⟨l, rfl, by simpa using h⟩)
      · simp only [GClass.received] at hg
        rw [hg]
        exact .fatal _ _ (by simp) (by simp)
    | recvTrinus =>
      unfold deliver
      dsimp only
      unfold inTrinus
      split <;> rename_i hk <;> rw [hk] at ht
      · exact .marked (line_eq_ofRaw ht).1.symm
      · rw [(line_eq_ofRaw ht).2]
        exact .fatal _ _ (by simp) (by simp)
      · obtain ⟨rfl, _⟩ := line_eq_ofRaw ht
        exact .notice _ (by simp)
      · have hr := (line_eq_ofRaw ht).1.symm
        split
        · rename_i h
          exact .resent hr h
        · rename_i h
          exact .acked _ hr (.inr (.inl ⟨rfl, by simpa using h⟩))
      · simp only [TClass.received] at ht
        rw [ht]
        exact .dropped _ _ (.inr rfl) (by simp)
    | recvMarlin =>
      unfold deliver
      dsimp only
      unfold inMarlin
      split <;> rename_i hk <;> rw [hk] at hm
      · obtain ⟨rfl, _⟩ := line_eq_ofRaw hm
        exact .notice _ (by simp)
      · exact .acked _ (line_eq_ofRaw hm).1.symm (.inr (.inr rfl))
      · simp only [MClass.received] at hm
        rw [hm]
        exact .dropped _ _ (.inr rfl) (by simp)
  | pgmEnd n =>
    unfold deliver
    dsimp only
    unfold pgmEndNext
    split
    · rename_i h
      exact .ended n h
    · rename_i h
      exact .counted n (by omega)
  | rdline =>
    unfold deliver
    dsimp only
    unfold inRdline Received.ofRaw
    split <;> rename_i h <;> split at h <;> cases h <;> rename_i ht
    · exact .answer _ (.inr ⟨ht, rfl⟩)
    · exact .answer _ (.inl ⟨by simpa using ht, rfl⟩)
  | start => cases hc
  | top l => cases hc
  | sleepTop k => cases hc
  | sleep k => cases hc

/-- Everything a time-out can do to a waiting read (R106, R111, R143, R186, R235). -/
theorem timedOut_cases (op : Op) {c : Ctl} (s : State) (hc : c.reads = true) :
    (c = .read .drain ∧ timedOut op c s = s.complete (.ok .nothing)) ∨
    (∃ l, c = .read l ∧ l ≠ .drain ∧ timedOut op c s = s.goto op (.top l)) ∨
    (∃ n, c = .pgmEnd n ∧ 2 ≤ n ∧ timedOut op c s = s.goto op (.pgmEnd (n - 1))) ∨
    (∃ n, c = .pgmEnd n ∧ n ≤ 1 ∧ timedOut op c s = s.complete (.ok (.text okText))) ∨
    (c = .rdline ∧ timedOut op c s = s.complete .none) := by
  cases c with
  | read l =>
    cases l with
    | drain => exact .inl ⟨rfl, rfl⟩
    | acq k => exact .inr (.inl ⟨_, rfl, by simp, rfl⟩)
    | ack l => exact .inr (.inl ⟨_, rfl, by simp, rfl⟩)
    | recvTrinus => exact .inr (.inl ⟨_, rfl, by simp, rfl⟩)
    | recvMarlin => exact .inr (.inl ⟨_, rfl, by simp, rfl⟩)
  | pgmEnd n =>
    by_cases h : n ≤ 1
    · exact .inr (.inr (.inr (.inl ⟨n, rfl, h, if_pos h⟩)))
    · exact .inr (.inr (.inl ⟨n, rfl, by omega, if_neg h⟩))
  | rdline => exact .inr (.inr (.inr (.inr ⟨rfl, rfl⟩)))
  | start => cases hc
  | top l => cases hc
  | sleepTop k => cases hc
  | sleep k => cases hc

end Sys2Proof.Machine
end

