-- ==== Sys2Proof/Laws/Step.lean ====
section
/-!
SUPPORT. Everything a presented operation, a move of the sequencer and a step can do, said once as the cases of `Taken`, `Moved`
and `Stepped`: an invariant is proved by going through the cases of `step_cases`.
-/

namespace Sys2Proof.Machine

/-! ## The host's operations -/

/-- Everything an accepted operation can do, by the instruction that presents it (R141 to R149, R63). -/
inductive Accepted (s : State) (i : Instr) : State → Prop where
  | setvar (v : Variant) (hi : i = .setvar v) (hp : s.ph = .closed) :
      Accepted s i { s with variant := v, cancel := false, completion := some (.ok .nothing), ph := .closed }
  | openOp (b : Bool) (hi : i = .openOp b) (hp : s.ph = .closed) : Accepted s i (openBody (s.accept .openOp))
  | close (hi : i = .close) : Accepted s i { s with
      link := false, carrier := if s.link then [] else s.carrier, cancel := false, completion := some (.ok .nothing),
      ph := .closed }
  | queue (op : Op) (l : Line) (js : List Line) (hi : commandLine i = some l) (ho : hostOp i = some op)
      (hs : op.sendsLine = true) (hp : s.ph = .ready) (hl : commandOk s.par l = true) :
      Accepted s i (queueBody op l (({ s with job := js } : State).accept op))
  | skipped (l : Line) (js : List Line) (hi : commandLine i = some l) (hk : skip l = true) (hp : s.ph = .ready) :
      Accepted s i { s with job := js, cancel := false, completion := some .skipped, ph := .ready }
  | status (op : Op) (k : AcqUse) (ho : hostOp i = some op) (hp : s.ph = .ready) (hv : s.variant.isGrbl = true)
      (hk : (op = .status ∧ k = .status) ∨ (op = .waitst ∧ ∃ p, k = .waitst p)) :
      Accepted s i (startStatus op k (s.accept op))
  | npopEmpty (hi : i = .npop) (hn : s.noticeq = []) : Accepted s i { s with cancel := false, completion := some .empty }
  | npop (u : Line) (rest : List Line) (hi : i = .npop) (hn : s.noticeq = u :: rest) :
      Accepted s i { s with cancel := false, noticeq := rest, completion := some (.ok (.text u)) }
  | topen (hi : i = .topen) (hp : s.ph = .closed) : Accepted s i ((s.accept .topen).reinit.linkUp.complete (.ok .nothing))
  | rdline (hi : i = .rdline) (hp : s.ph = .ready) : Accepted s i ((s.accept .rdline).goto .rdline .rdline)
  | wrline (u : Line) (hi : i = .wrline u) (hp : s.ph = .ready) (hu : hasLine s.term u = false) :
      Accepted s i (((s.accept .wrline).writeLine u).complete (.ok .nothing))

/-- Everything an instruction the host presents can do, from a state where no operation executes (R140). -/
inductive Taken (s : State) (i : Instr) : State → Prop where
  /-- An empty SENDJOB. -/
  | nothing : Taken s i s
  /-- A failed check (R140). -/
  | rejected (r : Reason) (js : List Line) : Taken s i { s with job := js, completion := some (.rejected r) }
  /-- All checks pass, and the operation runs up to its first wait. -/
  | accepted (t : State) (ha : s.accepts i = true) (h : Accepted s i t) : Taken s i t

/-- SETVAR, OPEN and TOPEN are admitted in CLOSED only (R140). -/
theorem admits_closed {op : Op} {p : Phase} (h : op.admits p = true) (ho : op = .setvar ∨ op = .openOp ∨ op = .topen) :
    p = .closed := by
  rcases ho with rfl | rfl | rfl <;> cases p <;> first | rfl | cases h

/-- The operations of a session are admitted in READY only (R140). -/
theorem admits_ready {op : Op} {p : Phase} (h : op.admits p = true)
    (ho : op = .queue ∨ op = .feed ∨ op = .status ∨ op = .waitst ∨ op = .rdline ∨ op = .wrline) : p = .ready := by
  rcases ho with rfl | rfl | rfl | rfl | rfl | rfl <;> cases p <;> first | rfl | cases h

/-- Presenting an operation gives one of the cases of `Taken`, if its body gives one of `Accepted`. -/
theorem present_taken {op : Op} {ok : Bool} {s : State} {i : Instr} {body : State → State} (js : List Line)
    (hb : s.ph.isBusy = false) (hi : hostOp i = some op) (hk : operandOk s i = ok)
    (h : op.admits s.ph = true → op.variantOk s.variant = true → ok = true →
      Accepted s i (body (({ s with job := js } : State).accept op))) :
    Taken s i (present op ok { s with job := js } body) := by
  rcases present_cases op ok { s with job := js } body with ⟨h1, _⟩ | ⟨_, r, _, h1⟩ | ⟨_, hr, h1⟩
  · exact absurd h1 (by simpa using hb)
  · rw [h1]
    exact .rejected r js
  · rw [h1]
    obtain ⟨h2, h3, h4⟩ := rejection_eq_none.mp hr
    exact .accepted _ (by simp [State.accepts, hi, hk, show op.admits s.ph = true from h2,
      show op.variantOk s.variant = true from h3, h4]) (h h2 h3 h4)

/-- FEED of a line, alone or in a job. -/
theorem execFeed_taken (l : Line) (js : List Line) {s : State} {i : Instr} (hb : s.ph.isBusy = false)
    (hi : hostOp i = some .feed) (hc : commandLine i = some l) (hk : operandOk s i = commandOk s.par l) :
    Taken s i (present .feed (commandOk s.par l) { s with job := js } (feedBody l)) := by
  refine present_taken js hb hi hk fun hp _ ho => ?_
  have hr : s.ph = .ready := admits_ready hp (by simp)
  unfold feedBody
  split
  · rename_i hs
    exact .skipped l js hc hs hr
  · exact .queue .feed l js hc hi rfl hr ho

/-- The body of CLOSE (R144). -/
theorem close_accepted (s : State) :
    Accepted s .close ((if s.link then (s.accept .close).linkDown else s.accept .close).complete (.ok .nothing)) := by
  have h := Accepted.close (s := s) rfl
  rcases s with ⟨⟨_, _, link⟩, _⟩
  cases link <;> exact h

/-- Executing what stands on the port answers a next state, one of `Taken` (R140). -/
theorem exec_decode_taken (p : PortOp) {s : State} (hb : s.ph.isBusy = false) :
    ∃ t, exec p.decode s = .next t ∧ Taken s p.decode t := by
  have status : ∀ (i : Instr) (op : Op) (k : AcqUse), hostOp i = some op → operandOk s i = true →
      ((op = .status ∧ k = .status) ∨ (op = .waitst ∧ ∃ p, k = .waitst p)) →
      Taken s i (present op true s (startStatus op k)) := by
    intro i op k hi ho hk
    refine present_taken s.job hb hi ho fun hp hv _ => ?_
    have h1 : s.ph = .ready := admits_ready hp (by rcases hk with ⟨rfl, _⟩ | ⟨rfl, _⟩ <;> simp)
    have h2 : s.variant.isGrbl = true := by
      rcases hk with ⟨rfl, _⟩ | ⟨rfl, _⟩ <;> simpa [Op.variantOk] using hv
    exact .status op k hi h1 h2 hk
  have host : ∀ r : HostOp, ∃ t, exec r.decode s = .next t ∧ Taken s r.decode t := by
    intro r
    unfold HostOp.decode
    split
    · refine ⟨_, rfl, present_taken s.job hb rfl rfl fun hp _ _ => ?_⟩
      exact .setvar _ rfl (admits_closed hp (by simp))
    · refine ⟨_, rfl, present_taken s.job hb rfl rfl fun hp _ _ => ?_⟩
      exact .openOp _ rfl (admits_closed hp (by simp))
    · exact ⟨_, rfl, present_taken s.job hb rfl rfl fun _ _ _ => close_accepted s⟩
    · refine ⟨_, rfl, present_taken s.job hb rfl rfl fun hp _ ho => ?_⟩
      exact .queue .queue _ s.job rfl rfl rfl (admits_ready hp (by simp)) ho
    · exact ⟨_, rfl, execFeed_taken _ s.job hb rfl rfl rfl⟩
    · exact ⟨_, rfl, status _ _ _ rfl rfl (.inl ⟨rfl, rfl⟩)⟩
    · exact ⟨_, rfl, status _ _ _ rfl rfl (.inr ⟨rfl, _, rfl⟩)⟩
    · refine ⟨_, rfl, present_taken s.job hb rfl rfl fun _ _ _ => ?_⟩
      unfold npopBody
      split
      · rename_i h
        exact .npopEmpty rfl h
      · rename_i u rest h
        exact .npop u rest rfl h
    · refine ⟨_, rfl, present_taken s.job hb rfl rfl fun hp _ _ => ?_⟩
      exact .topen rfl (admits_closed hp (by simp))
    · refine ⟨_, rfl, present_taken s.job hb rfl rfl fun hp _ _ => ?_⟩
      exact .rdline rfl (admits_ready hp (by simp))
    · refine ⟨_, rfl, present_taken s.job hb rfl rfl fun hp _ ho => ?_⟩
      refine .wrline _ rfl (admits_ready hp (by simp)) ?_
      simp [wrlineOk] at ho
      simpa using ho.2
    · refine ⟨_, rfl, ?_⟩
      unfold presentUnassigned
      rw [hb, complete_idle _ hb]
      exact .rejected .badOp s.job
  cases p with
  | op r => exact host r
  | pseudo q =>
    cases q with
    | waitidle => exact ⟨_, rfl, status _ _ _ rfl rfl (.inr ⟨rfl, _, rfl⟩)⟩
    | query => exact ⟨_, rfl, status _ _ _ rfl rfl (.inl ⟨rfl, rfl⟩)⟩
    | sendjob ls =>
      cases ls with
      | nil => exact ⟨s, rfl, .nothing⟩
      | cons l rest =>
        refine ⟨present .feed (commandOk s.par l) { s with job := rest } (feedBody l), ?_,
          execFeed_taken l rest hb rfl rfl rfl⟩
        simp only [PortOp.decode, Pseudo.decode, exec, execSendjob, hb]
        rfl

/-! ## The sequencer -/

/-- Everything the sequencer's move can do. -/
inductive Moved (s : State) : State → Prop where
  /-- It waits. -/
  | waits : Moved s s
  /-- The cancel point of a loop (R241). -/
  | top (op : Op) (l : Loop) (hp : s.ph = .busy op (.top l)) : Moved s (cancelPoint s (s.goto op (.read l)))
  /-- The cancel point of the sleep (R182, R241). -/
  | sleepTop (op : Op) (k : AcqUse) (hp : s.ph = .busy op (.sleepTop k)) : Moved s (cancelPoint s (s.goto op (.sleep k)))
  /-- A line is read (R104). -/
  | line (op : Op) (c : Ctl) (raw rest : Line) (hp : s.ph = .busy op c) (hc : c.reads = true)
      (hl : splitLine s.term s.rxbuf = some (raw, rest)) :
      Moved s (deliver op c raw (({ s with rxbuf := rest } : State).logged .rx (.ofRaw raw)))
  /-- No line: held back bytes arrive (R56). -/
  | held (op : Op) (c : Ctl) (hp : s.ph = .busy op c) (hc : c.reads = true) (hl : splitLine s.term s.rxbuf = none)
      (hh : s.carrier ≠ []) : Moved s (s.deviceSends [])
  /-- A job ends (R63). -/
  | jobEnds (hb : s.ph.isBusy = false) : Moved s { s with job := [] }
  /-- An operation is presented, from the port or by a job. -/
  | taken (i : Instr) (t : State) (ps : List PortOp) (ho : s.offered = some i) (ht : Taken { s with port := ps } i t)
      (hs : ps = s.port ∨ ∃ p, s.port = p :: ps ∧ i = p.decode ∧ exec p.decode { s with port := ps } = .next t) : Moved s t

/-- While something is offered no operation executes. -/
theorem not_busy_of_offered {s : State} {i : Instr} (h : s.offered = some i) : s.ph.isBusy = false := by
  unfold State.offered at h
  split at h
  · cases h
  · rename_i hb
    simpa using hb

/-- The sequencer's move answers a next state, one of `Moved`. -/
theorem sequencerMove_moved (s : State) : ∃ t, sequencerMove s = .next t ∧ Moved s t := by
  have read : ∀ op c, s.ph = .busy op c → c.reads = true → ∃ t, readStep s = .next t ∧ Moved s t := by
    intro op c hp hc
    unfold readStep
    split
    · rename_i raw rest hl
      refine ⟨_, exec_classify _ _ _, ?_⟩
      have := Moved.line op c raw rest hp hc hl
      simpa [receive, hp] using this
    · rename_i hl
      refine ⟨_, rfl, ?_⟩
      unfold admitHeld
      split
      · exact .waits
      · rename_i hh
        exact .held op c hp hc hl (by simpa using hh)
  have idle : s.ph.isBusy = false → ∃ t, idleStep s = .next t ∧ Moved s t := by
    intro hb
    unfold idleStep
    split
    · rename_i l rest hj
      unfold nextOfJob
      split
      · rename_i hg
        refine ⟨_, rfl, ?_⟩
        exact .taken (.feed l) _ s.port (by simp [State.offered, hb, hj, hg])
          (execFeed_taken (s := { s with port := s.port }) (i := .feed l) l rest hb rfl rfl rfl) (.inl rfl)
      · exact ⟨_, rfl, .jobEnds hb⟩
    · rename_i p ps hj hq
      obtain ⟨t, h1, h2⟩ := exec_decode_taken p (s := { s with port := ps }) hb
      exact ⟨t, h1, .taken p.decode t ps (by simp [State.offered, hb, hj, hq]) h2 (.inr ⟨p, hq, rfl, h1⟩)⟩
    · exact ⟨_, rfl, .waits⟩
  unfold sequencerMove
  split
  · rename_i op c hp
    unfold busyStep
    split
    · exact ⟨_, rfl, .top _ _ hp⟩
    · exact ⟨_, rfl, .sleepTop _ _ hp⟩
    · exact read _ _ hp rfl
    · exact read _ _ hp rfl
    · exact read _ _ hp rfl
    · exact ⟨_, rfl, .waits⟩
    · exact ⟨_, rfl, .waits⟩
  all_goals
    rename_i hp
    exact idle (by rw [hp]; rfl)

/-! ## The step -/

/-- Everything one step can do: a move of the sequencer, or one event of the environment (R7). -/
inductive Stepped (s : State) : State → Prop where
  | move (t : State) (hr : s.resetNext = false) (hu : s.turn = true) (h : Moved { s with inputs := s.inputs.tail } t) :
      Stepped s t
  | rx (d : Line) (es : List Input) (hi : s.inputs = .rx d :: es) : Stepped s (({ s with inputs := es } : State).deviceSends d)
  | timeout (op : Op) (c : Ctl) (es : List Input) (hi : s.inputs = .timeout :: es) (hp : s.ph = .busy op c)
      (hc : c.reads = true) (hl : hasLine s.term s.rxbuf = false) : Stepped s (timedOut op c { s with inputs := es })
  | poll (op : Op) (k : AcqUse) (es : List Input) (hi : s.inputs = .poll :: es) (hp : s.ph = .busy op (.sleep k)) :
      Stepped s (startStatus op k { s with inputs := es })
  | idleEvent (e : Input) (es : List Input) (hi : s.inputs = e :: es) (hr : s.resetNext = false) :
      Stepped s { s with inputs := es }
  | cancel (es : List Input) (hi : s.inputs = .cancel :: es) : Stepped s { s with inputs := es, cancel := true }
  | present (p : PortOp) (es : List Input) (hi : s.inputs = .present p :: es) :
      Stepped s { s with inputs := es, port := s.port ++ [p] }
  | reset (es : List Input) (hi : s.inputs = .reset :: es) : Stepped s (resetEvent { s with inputs := es })

/-- What is offered at the sequencer's turn is presented (R27, R140). -/
theorem presented_of_offered {s : State} {i : Instr} (hu : s.turn = true)
    (ho : ({ s with inputs := s.inputs.tail } : State).offered = some i) : s.presented = some i := by
  unfold State.presented
  rw [if_pos hu]
  exact ho

/-- What a step answers is one of `Stepped`. -/
theorem step_cases {s t : State} (h : step s = .next t) : Stepped s t := by
  have move : s.resetNext = false → s.turn = true → sequencerMove { s with inputs := s.inputs.tail } = .next t →
      Stepped s t := by
    intro hr hu hs
    obtain ⟨u, h1, h2⟩ := sequencerMove_moved { s with inputs := s.inputs.tail }
    rw [hs] at h1
    cases h1
    exact .move t hr hu h2
  unfold step at h
  split at h
  · rename_i hi
    refine move (by simp [State.resetNext, hi]) (by simp [State.turn, hi]) ?_
    rw [← h, hi, List.tail_nil, ← hi]
  · rename_i e es hi
    cases e with
    | tick => exact move (by simp [State.resetNext, hi]) (by simp [State.turn, hi]) (by rw [hi]; exact h)
    | rx d => cases h; exact .rx d es hi
    | timeout =>
      cases h
      unfold timeoutEvent
      split
      · rename_i op c hp
        split
        · rename_i hc
          rw [Bool.and_eq_true, Bool.not_eq_true'] at hc
          exact .timeout op c es hi hp hc.1 hc.2
        · exact .idleEvent _ es hi (by simp [State.resetNext, hi])
      all_goals exact .idleEvent _ es hi (by simp [State.resetNext, hi])
    | poll =>
      cases h
      unfold pollEvent
      split
      · rename_i op k hp
        exact .poll op k es hi hp
      · exact .idleEvent _ es hi (by simp [State.resetNext, hi])
    | cancel => cases h; exact .cancel es hi
    | present p => cases h; exact .present p es hi
    | reset => cases h; exact .reset es hi

end Sys2Proof.Machine
end

