-- ==== Sys2Proof/Laws/Text.lean ====
section
/-!
SUPPORT. What the framer's cut does, said once (R103), its behaviour under later arrivals (R44), and which lines are framed
(R64, R71).
-/

namespace Sys2Proof

/-- A terminator is never empty. -/
theorem Term.bytes_ne_nil (t : Term) : t.bytes ≠ [] := by cases t <;> decide

/-- `prefix` is the prefix order of lists. -/
theorem isPrefix_iff (p s : Line) : isPrefix p s = true ↔ p <+: s := by
  simp [isPrefix, List.isPrefixOf_iff_prefix]

/-- The cut loses no byte: the line, the terminator and the rest are the buffer. -/
theorem splitLine_append {term b l r : Line} (h : splitLine term b = some (l, r)) : b = l ++ term ++ r := by
  induction b generalizing l r with
  | nil => simp [splitLine] at h
  | cons x xs ih =>
    unfold splitLine at h
    split at h
    · rename_i hp
      obtain ⟨rest, hr⟩ := (isPrefix_iff _ _).mp hp
      cases h
      rw [← hr]
      simp
    · obtain ⟨⟨l', r'⟩, hs, he⟩ := Option.map_eq_some_iff.mp h
      cases he
      simp [ih hs]

/-- Bytes that arrive later never change the first complete line (R44). -/
theorem splitLine_append_right {term b l r : Line} (d : Line) (h : splitLine term b = some (l, r)) :
    splitLine term (b ++ d) = some (l, r ++ d) := by
  induction b generalizing l r with
  | nil => simp [splitLine] at h
  | cons x xs ih =>
    unfold splitLine at h
    rw [List.cons_append]
    unfold splitLine
    split at h
    · rename_i hp
      have hp' : isPrefix term (x :: (xs ++ d)) = true :=
        (isPrefix_iff _ _).mpr (((isPrefix_iff _ _).mp hp).trans ⟨d, by simp⟩)
      have hle : term.length ≤ (x :: xs).length := ((isPrefix_iff _ _).mp hp).length_le
      cases h
      rw [if_pos hp', ← List.cons_append, List.drop_append_of_le_length hle]
    · obtain ⟨⟨l', r'⟩, hs, he⟩ := Option.map_eq_some_iff.mp h
      cases he
      rename_i hn
      have hlen : term.length ≤ xs.length := by
        have := congrArg List.length (splitLine_append hs)
        simp at this
        omega
      have hn' : ¬ isPrefix term (x :: (xs ++ d)) = true := by
        intro hp
        apply hn
        rw [isPrefix_iff] at hp ⊢
        rw [← List.cons_append] at hp
        exact List.prefix_of_prefix_length_le hp ⟨d, rfl⟩ (by simp; omega)
      rw [if_neg hn', ih hs]
      rfl

/-- A buffer that has a line keeps it when bytes arrive. -/
theorem hasLine_append {term b : Line} (d : Line) (h : hasLine term b = true) : hasLine term (b ++ d) = true := by
  obtain ⟨⟨l, r⟩, hs⟩ := Option.isSome_iff_exists.mp h
  exact Option.isSome_iff_exists.mpr ⟨_, splitLine_append_right d hs⟩

/-- A framed line is cut where it was framed. -/
theorem splitLine_framed {v : Variant} {p : Line} (h : hasLine v.term.bytes p = false) :
    splitLine v.term.bytes (p ++ v.term.bytes) = some (p, []) := by
  induction p with
  | nil => cases v <;> rfl
  | cons x xs ih =>
    have h1 : splitLine v.term.bytes (x :: xs) = none := by simpa [hasLine] using h
    unfold splitLine at h1
    split at h1
    · cases h1
    · rename_i hp
      have h2 : splitLine v.term.bytes xs = none := by simpa using h1
      have h3 : ¬ isPrefix v.term.bytes (x :: (xs ++ v.term.bytes)) = true := by
        intro hq
        apply hp
        cases v <;> simp only [Variant.term, Term.bytes, isPrefix] at hq ⊢ <;> cases xs <;> simp_all [List.isPrefixOf]
      rw [List.cons_append, splitLine, if_neg h3, ih (by simp [hasLine, h2])]
      rfl

/-- The line the framer cuts holds no terminator. -/
theorem splitLine_line {v : Variant} {b l r : Line} (h : splitLine v.term.bytes b = some (l, r)) :
    hasLine v.term.bytes l = false := by
  induction b generalizing l r with
  | nil => simp [splitLine] at h
  | cons x xs ih =>
    unfold splitLine at h
    split at h
    · cases h; cases v <;> rfl
    · rename_i hp
      obtain ⟨⟨l', r'⟩, hs, he⟩ := Option.map_eq_some_iff.mp h
      cases he
      have h1 : splitLine v.term.bytes l' = none := by simpa [hasLine] using ih hs
      have h2 : ¬ isPrefix v.term.bytes (x :: l') = true := by
        intro hq
        apply hp
        rw [splitLine_append hs]
        rw [isPrefix_iff] at hq ⊢
        exact hq.trans ⟨v.term.bytes ++ r', by simp⟩
      unfold hasLine
      rw [splitLine, if_neg h2, h1]
      rfl

/-- The whole lines on the wire are those framed by one terminator (R64, R71). -/
theorem cutLine_iff {v : Variant} {b p : Line} :
    cutLine v b = .ok p ↔ hasLine v.term.bytes p = false ∧ b = p ++ v.term.bytes := by
  constructor
  · intro h
    unfold cutLine at h
    split at h
    · cases h
    · rename_i hs
      cases h
      exact ⟨splitLine_line hs, by simpa using splitLine_append hs⟩
    · cases h
  · rintro ⟨h, rfl⟩
    simp [cutLine, splitLine_framed h]
end Sys2Proof
end

