-- ==== Sys2Proof/Tests/Slice0.lean ====
section
/-!
SUPPORT. Tests: ill-formed instructions that well-formedness refuses, words written out from the encodings of 30_encoding.md,
single steps whose results stand in spec/ (the rule is named in each comment), and one witness for the hypotheses of each
statement of Certificates/Slice0/Obligations.lean.
-/

namespace Sys2Proof.Tests

open Sys2Proof Sys2Proof.Machine

/-- A state of a session on variant `v` in phase `p`, otherwise as after reset. -/
def inPhase (v : Variant) (p : Phase) : State := { State.reset with variant := v, ph := p, link := p.live }

/-- A field of the next state of an outcome. -/
def get {α : Type} (f : State → α) : Host.Outcome State Fault Refusal → Option α
  | .next t => some (f t)
  | .fault _ => none
  | .refused _ => none

/-- The instruction of a decoding, if any. -/
def decoded (e : Encoded) : Option Instr :=
  match decode e with
  | .ok i => some i
  | .error _ => none

/-- The name a decoding is rejected by, if it is. -/
def rejectedBy (e : Encoded) : Option DecodeError :=
  match decode e with
  | .ok _ => none
  | .error e => some e

/-! ## Well-formedness refuses -/

/-- R82: `01` and `0B` are assigned codes. -/
theorem test_wf_assigned_code : (Instr.unassigned 0x01).wf .grbl09 = false ∧ (Instr.unassigned 0x0B).wf .grbl09 = false := by
  decide

/-- R64: a payload that holds its terminator. -/
theorem test_wf_raw_terminator :
    (Instr.txRaw [0x61, 0x0A]).wf .trinus = false ∧ (Instr.txRaw [0x61, 0x0D, 0x0A, 0x62]).wf .grbl11 = false ∧
    (Instr.txRaw [0x61, 0x0A]).wf .grbl11 = true := by decide

/-- R67: Grbl lines carry no checksum; a star, the prefix M117, a comment and a trailing space are never checksummed. -/
theorem test_wf_checksummed :
    (Instr.txChecksummed (ascii "G0")).wf .grbl11 = false ∧ (Instr.txChecksummed (ascii "G0*1")).wf .trinus = false ∧
    (Instr.txChecksummed (ascii "M117 a")).wf .marlin = false ∧ (Instr.txChecksummed (ascii "G0;x")).wf .marlin = false ∧
    (Instr.txChecksummed (ascii "G0 ")).wf .trinus = false ∧ (Instr.txChecksummed [0x47, 0x0A, 0x30]).wf .trinus = false := by
  decide

/-- R73: the class, the variant and the framing of a Grbl line. -/
theorem test_wf_grbl :
    (Instr.gNotice (ascii "[x")).wf .grbl09 = false ∧ (Instr.gNotice (ascii "[x]")).wf .marlin = false ∧
    (Instr.gNotice ([0x5B, 0x0D, 0x0A, 0x5D])).wf .grbl09 = false ∧ (Instr.gStatus (ascii "<Idle")).wf .grbl11 = false ∧
    Instr.gOk.wf .trinus = false ∧ (Instr.gOther (ascii "ok")).wf .grbl11 = false := by decide

/-- R74: the exact checksum-error text is no T_ERROR, a value is no T_OTHER. -/
theorem test_wf_trinus :
    (Instr.tError (ascii "[ERROR] invalid checksum")).wf .trinus = false ∧ (Instr.tError (ascii "x")).wf .trinus = false ∧
    (Instr.tInfo (ascii "[INFO]")).wf .trinus = false ∧ (Instr.tOther (ascii "[VALUE]1")).wf .trinus = false ∧
    Instr.tCkerr.wf .marlin = false ∧ Instr.tOk.wf .grbl09 = false := by decide

/-- R75: Marlin classes. -/
theorem test_wf_marlin :
    (Instr.mInfo (ascii "Echo:x")).wf .marlin = false ∧ (Instr.mInfo (ascii "echo:")).wf .trinus = false ∧
    Instr.mOk.wf .trinus = false ∧ (Instr.mOther (ascii "echo:x")).wf .marlin = false := by decide

/-! ## Words written out -/

/-- R60, R61: host operations in byte form, one of each row. -/
theorem test_decode_hostop :
    decoded (.hostop [0x01, 0x03]) = some (.setvar .marlin) ∧ decoded (.hostop [0x02, 0x01]) = some (.openOp true) ∧
    decoded (.hostop [0x03]) = some .close ∧ decoded (.hostop [0x04, 0x47, 0x31]) = some (.queue [0x47, 0x31]) ∧
    decoded (.hostop [0x05, 0x25]) = some (.feed [0x25]) ∧ decoded (.hostop [0x06]) = some .status ∧
    decoded (.hostop [0x07, 0x01, 0x31, 0x35]) = some (.waitst (.gate11 15)) ∧ decoded (.hostop [0x08]) = some .npop ∧
    decoded (.hostop [0x09]) = some .topen ∧ decoded (.hostop [0x0A]) = some .rdline ∧
    decoded (.hostop [0x0B, 0xC3]) = some (.wrline [0xC3]) ∧ decoded (.hostop [0x00]) = some (.unassigned 0x00) ∧
    decoded (.hostop [0x0C]) = some (.unassigned 0x0C) := by decide

/-- R61, R86: operands outside their numbers, missing, or too many. -/
theorem test_decode_hostop_rejects :
    rejectedBy (.hostop []) = some .noBytes ∧ rejectedBy (.hostop [0x01]) = some .missingOperand ∧
    rejectedBy (.hostop [0x01, 0x04]) = some .operandRange ∧ rejectedBy (.hostop [0x02, 0x02]) = some .operandRange ∧
    rejectedBy (.hostop [0x03, 0x00]) = some .extraOperand ∧ rejectedBy (.hostop [0x07, 0x04]) = some .operandRange ∧
    rejectedBy (.hostop [0x07, 0x01]) = some .missingOperand := by decide

/-- R63: the pseudo-operations by their expansions. -/
theorem test_decode_pseudo :
    decoded (.pseudo [[0x07, 0x02]]) = some .waitidle ∧ decoded (.pseudo [[0x06]]) = some .query ∧
    decoded (.pseudo [[0x05, 0x47], [0x05]]) = some (.sendjob [[0x47], []]) ∧
    rejectedBy (.pseudo [[0x03]]) = some .notPseudo := by decide

/-- R67, R68: the worked line of the source, and the query. -/
theorem test_decode_txline :
    decoded (.txline .trinus [0x47, 0x30, 0x20, 0x58, 0x31, 0x20, 0x2A, 0x33, 0x30, 0x0A])
      = some (.txChecksummed [0x47, 0x30, 0x20, 0x58, 0x31]) ∧
    decoded (.txline .grbl09 [0x3F, 0x0D, 0x0A]) = some (.txRaw [0x3F]) ∧
    decoded (.txline .trinus [0x47, 0x30, 0x20, 0x58, 0x31, 0x20, 0x2A, 0x39, 0x39, 0x0A])
      = some (.txRaw [0x47, 0x30, 0x20, 0x58, 0x31, 0x20, 0x2A, 0x39, 0x39]) ∧
    rejectedBy (.txline .grbl09 [0x3F, 0x0A]) = some .noTerminator := by decide

/-- R73: one line of each Grbl class, the placeholder's bytes `C3 28` (R113) and the empty line among the others. -/
theorem test_decode_grbl :
    decoded (.rxline .grbl11 [0x5B, 0x4D, 0x5D, 0x0D, 0x0A]) = some (.gNotice [0x5B, 0x4D, 0x5D]) ∧
    decoded (.rxline .grbl11 [0x3C, 0x49, 0x3E, 0x0D, 0x0A]) = some (.gStatus [0x3C, 0x49, 0x3E]) ∧
    decoded (.rxline .grbl09 [0x6F, 0x6B, 0x0D, 0x0A]) = some .gOk ∧
    decoded (.rxline .grbl09 [0xC3, 0x28, 0x0D, 0x0A]) = some (.gOther [0xC3, 0x28]) ∧
    decoded (.rxline .grbl09 [0x0D, 0x0A]) = some (.gOther []) ∧
    decoded (.rxline .grbl09 [0x6F, 0x6B, 0x20, 0x0D, 0x0A]) = some (.gOther [0x6F, 0x6B, 0x20]) := by decide

/-- R74: one line of each Trinus class; the exact checksum-error text stands before the general prefix. -/
theorem test_decode_trinus :
    decoded (.rxline .trinus [0x5B, 0x45, 0x52, 0x52, 0x4F, 0x52, 0x5D, 0x20, 0x69, 0x6E, 0x76, 0x61, 0x6C, 0x69, 0x64, 0x20,
      0x63, 0x68, 0x65, 0x63, 0x6B, 0x73, 0x75, 0x6D, 0x0A]) = some .tCkerr ∧
    decoded (.rxline .trinus [0x5B, 0x45, 0x52, 0x52, 0x4F, 0x52, 0x5D, 0x0A])
      = some (.tError [0x5B, 0x45, 0x52, 0x52, 0x4F, 0x52, 0x5D]) ∧
    decoded (.rxline .trinus [0x5B, 0x45, 0x43, 0x48, 0x4F, 0x5D, 0x0A]) = some (.tInfo [0x5B, 0x45, 0x43, 0x48, 0x4F, 0x5D]) ∧
    decoded (.rxline .trinus [0x6F, 0x6B, 0x0A]) = some .tOk ∧
    decoded (.rxline .trinus [0x6F, 0x6B, 0x0D, 0x0A]) = some (.tOther [0x6F, 0x6B, 0x0D]) := by decide

/-- R75: one line of each Marlin class. -/
theorem test_decode_marlin :
    decoded (.rxline .marlin [0x65, 0x63, 0x68, 0x6F, 0x3A, 0x0A]) = some (.mInfo [0x65, 0x63, 0x68, 0x6F, 0x3A]) ∧
    decoded (.rxline .marlin [0x6F, 0x6B, 0x0A]) = some .mOk ∧
    decoded (.rxline .marlin [0x4F, 0x4B, 0x0A]) = some (.mOther [0x4F, 0x4B]) ∧
    rejectedBy (.rxline .marlin [0x6F, 0x0A, 0x6B, 0x0A]) = some .innerTerminator := by decide

/-- R62: the completion codes. -/
theorem test_decode_completion :
    decoded (.completion 0 (.text [0x6F, 0x6B])) = some (.cplOk (.text [0x6F, 0x6B])) ∧
    decoded (.completion 1 .nothing) = some .cplSuppressed ∧ decoded (.completion 2 .nothing) = some .cplSkipped ∧
    decoded (.completion 3 .nothing) = some .cplNone ∧ decoded (.completion 4 .bad) = some .cplBadline ∧
    decoded (.completion 5 .nothing) = some .cplEmpty ∧ decoded (.completion 6 .nothing) = some .cplCancelled ∧
    decoded (.completion 7 (.reason .badOp)) = some (.cplRejected .badOp) ∧
    decoded (.completion 8 (.error 1 .bad)) = some (.cplFatal .grblBadAck .bad) ∧
    rejectedBy (.completion 9 .nothing) = some .unusedCompletion ∧ rejectedBy (.completion 4 .nothing) = some .payloadMismatch := by
  decide

/-- R230: the error codes. -/
theorem test_decode_errcode :
    decoded (.errcode 1 .bad) = some (.errGrblBadAck .bad) ∧ decoded (.errcode 2 (.line [0x3C, 0x3E])) = some (.errGrblStatusParse (.line [0x3C, 0x3E])) ∧
    decoded (.errcode 3 (.line [0x5B])) = some (.errTrinusDeviceError (.line [0x5B])) ∧
    decoded (.errcode 4 (.line [])) = some .errRxOverrun ∧ rejectedBy (.errcode 0 .bad) = some .unusedError ∧
    rejectedBy (.errcode 5 .bad) = some .unusedError := by decide

/-- The fixed interface to the opcode table: SETVAR's code with a zero operand, and the word as the first instruction. -/
theorem test_table_word :
    decodeTableWord 8 0x01 = some (.setvar .grbl09) ∧ decodeTableWord 8 0x0B = some (.wrline []) ∧
    get (·.ph) (step (State.reset.withFetchWord 8 0x09)) = some .ready := by decide

/-! ## Single steps -/

/-- R141's example: `SETVAR TRINUS` gives VARIANT 2 and TERM `0A`. -/
theorem test_setvar : get (fun t => (t.variant.bits, t.term)) (exec (.setvar .trinus) State.reset) = some (2, [0x0A]) := by decide

/-- R142's example: on GRBL11 OPEN puts `0D 0A 0D 0A` on the wire. -/
theorem test_open : get (·.txout) (exec (.openOp false) (inPhase .grbl11 .closed)) = some [0x0D, 0x0A, 0x0D, 0x0A] := by decide

/-- R144: CLOSE from FAULTED keeps ERR.*. -/
theorem test_close :
    get (fun t => (t.ph, t.errCode)) (exec .close { inPhase .trinus .faulted with errCode := 3 }) = some (.closed, 3) := by decide

/-- R207: `QUEUE "G1 X10 ; move"` on TRINUS puts `G1 X10 *47` LF on the wire. -/
theorem test_queue_trinus :
    get (·.txout) (exec (.queue (ascii "G1 X10 ; move")) (inPhase .trinus .ready))
      = some [0x47, 0x31, 0x20, 0x58, 0x31, 0x30, 0x20, 0x2A, 0x34, 0x37, 0x0A] := by decide

/-- R128: `G21` is suppressed with nothing sent; here on MARLIN (R215). -/
theorem test_queue_suppressed :
    get (fun t => (t.completion, t.txout)) (exec (.queue (ascii "G21 ; mm")) (inPhase .marlin .ready))
      = some (some .suppressed, []) := by decide

/-- R148's example: `FEED "(header)"` completes SKIPPED with nothing transmitted. -/
theorem test_feed :
    get (fun t => (t.completion, t.txout)) (exec (.feed (ascii "(header)")) (inPhase .trinus .ready))
      = some (some .skipped, []) := by decide

/-- R175: STATUS sends `3F 0D 0A`; R83: it does not exist on MARLIN. -/
theorem test_status :
    get (·.txout) (exec .status (inPhase .grbl09 .ready)) = some [0x3F, 0x0D, 0x0A] ∧
    get (·.completion) (exec .status (inPhase .marlin .ready)) = some (some (.rejected .badVariant)) := by decide

/-- R181: WAITST queries even if the stored report already satisfies the predicate. -/
theorem test_waitst :
    get (fun t => (t.txout, t.completion))
      (exec (.waitst .idle) { inPhase .grbl11 .ready with stValid := true, st := { StatusReport.atReset with state := ascii "Idle" } })
      = some ([0x3F, 0x0D, 0x0A], none) := by decide

/-- R149's example: the notice comes out, and a second NPOP finds the queue empty. -/
theorem test_npop :
    get (·.completion) (exec .npop { inPhase .trinus .faulted with noticeq := [ascii "[ECHO] hi"] })
      = some (some (.ok (.text (ascii "[ECHO] hi")))) ∧
    get (fun t => (t.completion, t.ph)) (exec .npop (inPhase .trinus .faulted)) = some (some .empty, .faulted) := by decide

/-- R110's example: from reset, TOPEN gives READY, LINK 1, nothing transmitted. -/
theorem test_topen : get (fun t => (t.ph, t.link, t.txout)) (exec .topen State.reset) = some (.ready, true, []) := by decide

/-- R111's example: RXBUF = `ok` LF on MARLIN completes OK("ok") and leaves RXBUF empty. -/
theorem test_rdline :
    get (fun t => (t.completion, t.rxbuf)) (step { inPhase .marlin (.busy .rdline .rdline) with rxbuf := [0x6F, 0x6B, 0x0A] })
      = some (some (.ok (.text [0x6F, 0x6B])), []) ∧
    get (·.ph) (exec .rdline (inPhase .marlin .ready)) = some (.busy .rdline .rdline) := by decide

/-- R112's example: `WRLINE "M105"` on MARLIN puts `4D 31 30 35 0A` on the wire. -/
theorem test_wrline : get (·.txout) (exec (.wrline (ascii "M105")) (inPhase .marlin .ready)) = some [0x4D, 0x31, 0x30, 0x35, 0x0A] := by
  decide

/-- R82. -/
theorem test_unassigned : get (·.completion) (exec (.unassigned 0x0C) State.reset) = some (some (.rejected .badOp)) := by decide

/-- R63: the abbreviations. -/
theorem test_pseudo :
    get (·.ph) (exec .waitidle (inPhase .grbl09 .ready)) = some (.busy .waitst (.top (.acq (.waitst .idle)))) ∧
    get (·.ph) (exec .query (inPhase .grbl09 .ready)) = some (.busy .status (.top (.acq .status))) := by decide

/-- R63: SENDJOB goes on after SKIPPED and stops after REJECTED. -/
theorem test_sendjob :
    get (fun t => (t.completion, t.job)) (exec (.sendjob [ascii "%", ascii "G0"]) (inPhase .trinus .ready))
      = some (some .skipped, [ascii "G0"]) ∧
    get (·.job) (step { inPhase .trinus .ready with job := [ascii "G0"], completion := some (.rejected .badArg) }) = some [] := by decide

/-- R108's example: `?` with CRLF appends `3F 0D 0A`. -/
theorem test_tx_raw : get (·.txout) (exec (.txRaw [0x3F]) (inPhase .grbl09 .ready)) = some [0x3F, 0x0D, 0x0A] := by decide

/-- R68: the worked encoding. -/
theorem test_tx_checksummed :
    get (·.txout) (exec (.txChecksummed (ascii "G0 X1")) (inPhase .trinus .ready))
      = some [0x47, 0x30, 0x20, 0x58, 0x31, 0x20, 0x2A, 0x33, 0x30, 0x0A] := by decide

/-- R171's example: `[MSG:Pgm End]` is queued. -/
theorem test_g_notice :
    get (·.noticeq) (exec (.gNotice (ascii "[MSG:Pgm End]")) (inPhase .grbl11 (.busy .queue (.read (.ack []))))) = some [ascii "[MSG:Pgm End]"] := by
  decide

/-- R171's example: `<Idle|Bf:15,128>` on GRBL11 stores Idle, 15, 128; a line of the other dialect is fatal (R172). -/
theorem test_g_status :
    get (fun t => (t.st.state, t.st.cmdbuf, t.st.rxbuf))
      (exec (.gStatus (ascii "<Idle|Bf:15,128>")) (inPhase .grbl11 (.busy .status (.read (.acq .status)))))
      = some (ascii "Idle", 15, 128) ∧
    get (·.errCode) (exec (.gStatus (ascii "<Idle|Bf:15,128>")) (inPhase .grbl09 (.busy .status (.read (.acq .status))))) = some 2 := by
  decide

/-- R73 row 4: `ok` ends the acknowledgment loop and is discarded in status acquisition. -/
theorem test_g_ok :
    get (·.completion) (exec .gOk (inPhase .grbl11 (.busy .queue (.read (.ack []))))) = some (some (.ok (.text okText))) ∧
    get (·.completion) (exec .gOk (inPhase .grbl11 (.busy .status (.read (.acq .status))))) = some none := by decide

/-- R185's example: `error:9` is fatal with that text; in status acquisition it is not (R175). -/
theorem test_g_other :
    get (fun t => (t.ph, t.errText)) (exec (.gOther (ascii "error:9")) (inPhase .grbl11 (.busy .queue (.read (.ack [])))))
      = some (.faulted, .line (ascii "error:9")) ∧
    get (·.ph) (exec (.gOther (ascii "error:9")) (inPhase .grbl11 (.busy .status (.read (.acq .status)))))
      = some (.busy .status (.top (.acq .status))) := by decide

/-- R202: the checksum-error text marks for resend and the loop reads on. -/
theorem test_t_ckerr :
    get (fun t => (t.resend, t.ph)) (exec .tCkerr (inPhase .trinus (.busy .queue (.read .recvTrinus))))
      = some (true, .busy .queue (.top .recvTrinus)) := by decide

/-- R233: fatal even when RESEND = 1, which keeps its value. -/
theorem test_t_error :
    get (fun t => (t.errCode, t.resend, t.link))
      (exec (.tError (ascii "[ERROR]")) { inPhase .trinus (.busy .queue (.read .recvTrinus)) with resend := true })
      = some (3, true, false) := by decide

/-- R202's example: `[VALUE] T:200` is queued. -/
theorem test_t_info :
    get (·.noticeq) (exec (.tInfo (ascii "[VALUE] T:200")) (inPhase .trinus (.busy .queue (.read .recvTrinus))))
      = some [ascii "[VALUE] T:200"] := by decide

/-- R203: `ok` with RESEND = 1 transmits CUR again and does not complete. -/
theorem test_t_ok :
    get (fun t => (t.txout, t.resend, t.completion))
      (exec .tOk { inPhase .trinus (.busy .queue (.read .recvTrinus)) with resend := true, cur := [0x41] })
      = some ([0x41, 0x0A], false, none) := by decide

/-- R202: `OK` is ignored chatter. -/
theorem test_t_other :
    get (·.ph) (exec (.tOther (ascii "OK")) (inPhase .trinus (.busy .queue (.read .recvTrinus)))) = some (.busy .queue (.top .recvTrinus)) := by
  decide

/-- R150: a notice that finds the queue full is discarded and NOVF is set. -/
theorem test_m_info :
    get (fun t => (t.noticeq, t.novf))
      (exec (.mInfo (ascii "echo:b"))
        { inPhase .marlin (.busy .queue (.read .recvMarlin)) with
          noticeq := [ascii "echo:a"], par := { Params.suggested with nqMax := some 1 } })
      = some ([ascii "echo:a"], true) := by decide

/-- R217: `ok` ends the wait; with no resend, whatever RESEND is. -/
theorem test_m_ok :
    get (fun t => (t.completion, t.inflight)) (exec .mOk { inPhase .marlin (.busy .feed (.read .recvMarlin)) with inflight := true })
      = some (some (.ok (.text okText)), false) := by decide

/-- R220: `Resend: 1` is ignored. -/
theorem test_m_other :
    get (fun t => (t.txout, t.ph)) (exec (.mOther (ascii "Resend: 1")) (inPhase .marlin (.busy .queue (.read .recvMarlin))))
      = some ([], .busy .queue (.top .recvMarlin)) := by decide

/-- R62, R151: each completion ends the executing operation with its record. -/
theorem test_completions :
    get (fun t => (t.completion, t.ph)) (exec (.cplOk .nothing) (inPhase .trinus (.busy .topen .start))) = some (some (.ok .nothing), .ready) ∧
    get (·.completion) (exec .cplSuppressed (inPhase .trinus (.busy .queue .start))) = some (some .suppressed) ∧
    get (·.completion) (exec .cplSkipped (inPhase .trinus (.busy .feed .start))) = some (some .skipped) ∧
    get (·.completion) (exec .cplNone (inPhase .trinus (.busy .rdline .rdline))) = some (some .none) ∧
    get (·.completion) (exec .cplBadline (inPhase .trinus (.busy .rdline .rdline))) = some (some .badline) ∧
    get (fun t => (t.completion, t.ph)) (exec .cplEmpty (inPhase .trinus .closed)) = some (some .empty, .closed) ∧
    get (fun t => (t.completion, t.cancel)) (exec .cplCancelled { inPhase .trinus (.busy .queue (.top .recvTrinus)) with cancel := true })
      = some (some .cancelled, false) ∧
    get (fun t => (t.completion, t.ph)) (exec (.cplRejected .badPhase) (inPhase .trinus .faulted))
      = some (some (.rejected .badPhase), .faulted) := by decide

/-- R236: a fatal error while an operation executes completes FATAL; while none does, there is no record. -/
theorem test_fatal :
    get (fun t => (t.completion, t.ph)) (exec (.cplFatal .grblBadAck .bad) (inPhase .grbl09 (.busy .queue (.read (.ack [])))))
      = some (some (.fatal .grblBadAck .bad), .faulted) ∧
    get (fun t => (t.completion, t.errCode)) (exec .errRxOverrun (inPhase .grbl09 .ready)) = some (none, 4) := by decide

/-- R230: the codes the fatal errors record. -/
theorem test_error_codes :
    get (·.errCode) (exec (.errGrblBadAck .bad) (inPhase .grbl09 (.busy .queue (.read (.ack []))))) = some 1 ∧
    get (·.errCode) (exec (.errGrblStatusParse (.line [])) (inPhase .grbl09 (.busy .queue (.read (.ack []))))) = some 2 ∧
    get (·.errCode) (exec (.errTrinusDeviceError (.line [])) (inPhase .trinus (.busy .queue (.read .recvTrinus)))) = some 3 := by decide

/-- R66: the bounds of the UTF-8 table. -/
theorem test_utf8 :
    isText [] = true ∧ isText [0x7F] = true ∧ isText [0x80] = false ∧ isText [0xC1, 0x80] = false ∧ isText [0xC2, 0x80] = true ∧
    isText [0xE0, 0x9F, 0x80] = false ∧ isText [0xE0, 0xA0, 0x80] = true ∧ isText [0xED, 0x9F, 0xBF] = true ∧
    isText [0xED, 0xA0, 0x80] = false ∧ isText [0xF0, 0x8F, 0x80, 0x80] = false ∧ isText [0xF4, 0x8F, 0xBF, 0xBF] = true ∧
    isText [0xF4, 0x90, 0x80, 0x80] = false ∧ isText [0xF5, 0x80, 0x80, 0x80] = false ∧ isText [0xC3, 0x28] = false := by decide

/-- R113: the rows of the framing table. -/
theorem test_framing :
    splitLine [0x0A] [0x0A] = some ([], []) ∧ splitLine [0x0D, 0x0A] [0x61, 0x0D, 0x0D, 0x0A] = some ([0x61, 0x0D], []) ∧
    splitLine [0x0D, 0x0A] [0x6F, 0x6B, 0x0A] = none ∧ splitLine [0x0A] [0x6F, 0x6B, 0x0D, 0x0A] = some ([0x6F, 0x6B, 0x0D], []) ∧
    splitLine [0x0D, 0x0A] [0x61, 0x0D, 0x62, 0x0D, 0x0A] = some ([0x61, 0x0D, 0x62], []) := by decide

/-- R120, R122, R123, R132: checksums and corner cases of the transform. -/
theorem test_transform :
    CK (ascii "G0 X1") = 30 ∧ CK [0x20] = 0 ∧ ckAppend [0x20] = ascii "  *0" ∧ ckVerify (ascii "G0 X2 *30") = false ∧
    shorten Params.suggested (ascii "; only a comment") = .send (ascii " *32") ∧
    shorten Params.suggested (ascii "G21 X") = .send (ascii "G21 X *28") ∧
    shorten Params.suggested (ascii "M117 a*b") = .send (ascii "M117 a*b") ∧
    shorten Params.suggested (ascii "G1 X1 ;*") = .send (ascii "G1 X1 *31") := by decide

/-! ## Witnesses for the hypotheses of the statements -/

/-- A field read off a next state shows that there is one. -/
theorem next_of_get {α : Type} {f : State → α} {o : Host.Outcome State Fault Refusal} {a : α} (h : get f o = some a) :
    ∃ t, o = .next t ∧ f t = a := by
  cases o with
  | next t => exact ⟨t, rfl, Option.some.inj h⟩
  | fault r => cases h
  | refused r => cases h

/-- CLOSE stands on the port. -/
def closing : State := { inPhase .trinus .ready with port := [.op (HostOp.bare 0x03)] }

/-- A Trinus QUEUE whose line was marked for resend reads. -/
def resending : State :=
  { inPhase .trinus (.busy .queue (.read .recvTrinus)) with
    resend := true, inflight := true, cur := [0x41], rxbuf := [0x6F, 0x6B, 0x0A] }

/-- A fatal error was taken, CLOSE stands on the port. -/
def aborted : State := { inPhase .trinus .faulted with errCode := 3, errText := .line (ascii "[ERROR] x"), port := [.op (HostOp.bare 0x03)] }

/-- A Grbl QUEUE waits for its acknowledgment, CANCEL is latched, a time-out comes. -/
def cancelling : State :=
  { inPhase .grbl11 (.busy .queue (.read (.ack (ascii "G0")))) with
    inflight := true, cancel := true, rxbuf := [0x6F, 0x6B, 0x0D], inputs := [.timeout] }

/-- RXBUF is full. -/
def full (b : Line) : State :=
  { inPhase .grbl11 .ready with
    rxbuf := b, par := { Params.suggested with rxLineMax := some b.length }, inputs := [.rx [0x0A]] }

theorem inv_closing : closing.Inv := by
  constructor <;> simp [closing, inPhase, State.reset, State.resetWith, Phase.live, Params.suggested]

theorem inv_resending : resending.Inv := by
  constructor <;> simp [resending, inPhase, State.reset, State.resetWith, Phase.live, Params.suggested] <;> decide

theorem inv_aborted : aborted.Inv := by
  constructor <;> simp [aborted, inPhase, State.reset, State.resetWith, Phase.live, Params.suggested]

theorem inv_cancelling : cancelling.Inv := by
  constructor <;> simp [cancelling, inPhase, State.reset, State.resetWith, Phase.live, Params.suggested] <;> decide

theorem witness_StepRunsThePresentedInstruction :
    (closing.ph.isBusy = false ∧ closing.job = [] ∧ closing.port = [.op (HostOp.bare 0x03)] ∧ closing.inputs = []) ∧
    ({ closing with inputs := [.tick] } : State).inputs = .tick :: [] ∧
    (State.reset.ph.isBusy = false ∧ State.reset.job = [] ∧ State.reset.port = [] ∧ State.reset.inputs = []) := by decide

theorem witness_StepRunsTheClassOfTheLineRead :
    resending.ph = .busy .queue (.read .recvTrinus) ∧ (Ctl.read .recvTrinus).reads = true ∧ resending.inputs = [] ∧
    splitLine resending.variant.term.bytes resending.rxbuf = some ([0x6F, 0x6B], []) := by decide

theorem witness_DecodeOfEncodeIsTheInstruction :
    (Instr.txChecksummed (ascii "G0 X1")).wf .trinus = true ∧ ∀ p, Instr.txChecksummed (ascii "G0 X1") ≠ .txRaw p :=
  ⟨by decide, fun _ h => by cases h⟩

/-- A framed line of each class of each table, at the least length of its shape, one that is no text, and the bytes of a text. -/
theorem witness_ReceivedLineDecodingIsFaithful :
    decode (.rxline .grbl11 [0x6F, 0x6B, 0x0D, 0x0A]) = .ok .gOk ∧
    (∀ raw ∈ [[0x5B, 0x5D], [0x3C, 0x3E], [0x6F, 0x6B], [0x5B], [0x80], [0x0D]], hasLine Variant.grbl09.term.bytes raw = false) ∧
    (∀ raw ∈ [ckerrText, errorPrefix, echoPrefix, valuePrefix, [0x6F, 0x6B], [0x80], []],
      hasLine Variant.trinus.term.bytes raw = false) ∧
    (∀ raw ∈ [marlinEchoPrefix, [0x6F, 0x6B], [0x80], []], hasLine Variant.marlin.term.bytes raw = false) ∧
    isText [0x5B, 0x5D] = true ∧ isText [0x80] = false ∧ Utf8Sequence [0x7F] := by
  refine ⟨rfl, by decide, by decide, by decide, by decide, by decide, .inl ⟨_, rfl, by decide⟩⟩

/-- A checksummed payload and its text on TRINUS, and RAW payloads: any on GRBL09, one with no star on MARLIN. -/
theorem witness_TransmittedLineDecodingKeepsTheBytes :
    decode (.txline .marlin [0x0A]) = .ok (.txRaw []) ∧ hasLine Variant.trinus.term.bytes (ascii "G0 X1 *30") = false ∧
    ascii "G0 X1 *30" = ascii "G0 X1" ++ [0x20, 0x2A] ++ dec (CK (ascii "G0 X1")).toNat ∧ strip (ascii "G0 X1") = ascii "G0 X1" ∧
    (0x2A : Byte) ∉ ascii "G0 X1" ∧ ¬ [0x4D, 0x31, 0x31, 0x37] <+: ascii "G0 X1" ∧
    hasLine Variant.grbl09.term.bytes [0x3F] = false ∧ hasLine Variant.marlin.term.bytes [] = false ∧
    ∀ t : Line, [] = t ++ [0x20, 0x2A] ++ dec (CK t).toNat →
      strip t ≠ t ∨ (0x2A : Byte) ∈ t ∨ [0x4D, 0x31, 0x31, 0x37] <+: t :=
  ⟨rfl, by decide, by decide, by decide, by decide, by decide, by decide, by decide, fun t h => by simp at h⟩

theorem witness_UnassignedCodesAreRejected :
    isUnassigned 0x00 = true ∧ isUnassigned 0x0C = true ∧ isUnassigned 0xFF = true ∧ State.reset.ph.isBusy = false := by decide

theorem witness_WrongPhaseOrVariantIsRejected :
    (inPhase .trinus .ready).ph = .ready ∧ (inPhase .trinus .faulted).ph = .faulted ∧ (inPhase .trinus .closed).ph = .closed ∧
    ((inPhase .trinus .ready).variant = .trinus ∨ (inPhase .trinus .ready).variant = .marlin) := by decide

/-- The least length that is too long, and the bytes on either side of `20..7E`. -/
theorem witness_BadCommandLineIsRejected :
    (inPhase .trinus .ready).ph = .ready ∧
    (∃ m, ({ inPhase .trinus .ready with par := { Params.suggested with cmdLineMax := some 1 } } : State).par.cmdLineMax = some m ∧
      m < (ascii "G0").length) ∧
    (∃ b ∈ ([0x1F] : Line), b.toNat < 0x20 ∨ 0x7E < b.toNat) ∧ ∃ b ∈ ([0x7F] : Line), b.toNat < 0x20 ∨ 0x7E < b.toNat :=
  ⟨rfl, ⟨1, rfl, by decide⟩, by decide, by decide⟩

/-- OPEN, TOPEN, SETVAR in CLOSED; CLOSE and NPOP in any phase that is not busy, with and without a link and a notice. -/
theorem witness_SessionOperations :
    State.reset.ph = .closed ∧ State.reset.ph.isBusy = false ∧ State.reset.noticeq = [] ∧ closing.ph.isBusy = false ∧
    closing.link = true ∧ ({ closing with noticeq := [[0x5B, 0x5D]] } : State).noticeq = [0x5B, 0x5D] :: [] := by decide

/-- The drain with a line, at a time-out with none, and at a time-out with one. -/
theorem witness_DrainDiscardsEveryLine :
    let s := inPhase .trinus (.busy .openOp (.read .drain))
    s.ph = .busy .openOp (.read .drain) ∧ s.inputs = [] ∧
    splitLine s.variant.term.bytes ({ s with rxbuf := [0x0A] } : State).rxbuf = some ([], []) ∧
    ({ s with inputs := [.timeout] } : State).inputs = .timeout :: [] ∧ hasLine s.variant.term.bytes s.rxbuf = false ∧
    hasLine s.variant.term.bytes ({ s with rxbuf := [0x0A] } : State).rxbuf = true := by decide

/-- A text, bytes that are no text, and no line with a time-out. -/
theorem witness_RdlineReadsOneLine :
    let s := inPhase .marlin (.busy .rdline .rdline)
    (inPhase .marlin .ready).ph = .ready ∧ s.ph = .busy .rdline .rdline ∧ s.inputs = [] ∧
    splitLine s.variant.term.bytes ({ s with rxbuf := [0x6F, 0x0A] } : State).rxbuf = some ([0x6F], []) ∧ isText [0x6F] = true ∧
    splitLine s.variant.term.bytes ({ s with rxbuf := [0x80, 0x0A] } : State).rxbuf = some ([0x80], []) ∧ isText [0x80] = false ∧
    ({ s with inputs := [.timeout] } : State).inputs = .timeout :: [] ∧ hasLine s.variant.term.bytes s.rxbuf = false := by decide

/-- A text with the terminator, a text one byte too long, and a text of exactly the length allowed. -/
theorem witness_WrlineTransmitsAsGiven :
    let s : State := { inPhase .marlin .ready with par := { Params.suggested with cmdLineMax := some 4 } }
    s.ph = .ready ∧ hasLine s.variant.term.bytes [0x0A] = true ∧
    (∃ m, s.par.cmdLineMax = some m ∧ m < (ascii "M105X").length) ∧ hasLine s.variant.term.bytes (ascii "M105") = false ∧
    ∀ m, s.par.cmdLineMax = some m → (ascii "M105").length ≤ m :=
  ⟨rfl, by decide, ⟨4, rfl, by decide⟩, by decide, fun m h => by cases h; decide⟩

/-- QUEUE on each variant: a line, the query line, a suppressed line and a sent one. -/
theorem witness_QueueStatements :
    (inPhase .grbl09 .ready).ph = .ready ∧ (inPhase .grbl09 .ready).variant = .grbl09 ∧
    commandOk (inPhase .grbl09 .ready).par (ascii "G0") = true ∧ ascii "G0" ≠ [0x3F] ∧
    commandOk (inPhase .grbl11 .ready).par [0x3F] = true ∧ (inPhase .trinus .ready).variant = .trinus ∧
    (inPhase .marlin .ready).variant = .marlin ∧ commandOk (inPhase .trinus .ready).par (ascii "G21") = true ∧
    shorten (inPhase .trinus .ready).par (ascii "G21") = .suppress ∧
    shorten (inPhase .trinus .ready).par (ascii "G0*") = .send (ascii "G0*") := by decide

/-- FEED: an empty line, a directive, a comment, and a line that is none of these. -/
theorem witness_FeedSkipsOrQueues :
    (inPhase .trinus .ready).ph = .ready ∧ commandOk (inPhase .trinus .ready).par [] = true ∧ (∀ b ∈ ([] : Line), b = 0x20) ∧
    commandOk (inPhase .trinus .ready).par [0x25] = true ∧ ([0x25] : Line).head? = some 0x25 ∧ ([0x28] : Line).head? = some 0x28 ∧
    commandOk (inPhase .trinus .ready).par (ascii " (") = true ∧
    ¬ ((∀ b ∈ ascii " (", b = 0x20) ∨ (ascii " (").head? = some 0x25 ∨ (ascii " (").head? = some 0x28) := by decide

theorem witness_StatusAndWaitstQueryAfresh :
    (inPhase .grbl11 .ready).ph = .ready ∧ ((inPhase .grbl11 .ready).variant = .grbl09 ∨ (inPhase .grbl11 .ready).variant = .grbl11) := by
  decide

/-- A job after SKIPPED and a job after CANCELLED. -/
theorem witness_SendjobFeedsLineByLine :
    let s : State := { inPhase .trinus .ready with job := [[0x25]], completion := some .skipped }
    s.ph.isBusy = false ∧ s.inputs = [] ∧ s.job = [0x25] :: [] ∧ s.completion = some .skipped ∧
    ¬ ((∃ p, (some Completion.cancelled) = some (.ok p)) ∨ some Completion.cancelled = some .suppressed
      ∨ some Completion.cancelled = some .skipped) :=
  ⟨rfl, rfl, rfl, rfl, by rintro (⟨_, h⟩ | h | h) <;> cases h⟩

/-- The link up with a payload without and with the terminator, and the link down. -/
theorem witness_TransmittedLinesGoOutWhole :
    (inPhase .trinus .ready).link = true ∧ hasLine (inPhase .trinus .ready).variant.term.bytes [0x0D] = false ∧
    hasLine (inPhase .trinus .ready).variant.term.bytes ([0x47] ++ [0x20, 0x2A] ++ dec (xorAll [0x47] ^^^ 0x20).toNat) = false ∧
    State.reset.link = false ∧ hasLine (inPhase .trinus .ready).variant.term.bytes [0x0A] = true ∧
    hasLine (inPhase .trinus .ready).variant.term.bytes ([0x0A] ++ [0x20, 0x2A] ++ dec (xorAll [0x0A] ^^^ 0x20).toNat) = true := by
  decide

/-- The acknowledgment loop: room and no room for a notice, a line that parses and one that does not, a program end and another
line. -/
theorem witness_AckLoopFollowsItsTable :
    let s := inPhase .grbl11 (.busy .queue (.read (.ack (ascii "M2"))))
    s.ph = .busy .queue (.read (.ack (ascii "M2"))) ∧ s.noticeRoom = true ∧
    ({ s with par := { Params.suggested with nqMax := some 0 } } : State).noticeRoom = false ∧
    (parseStatus s.variant (ascii "<Idle|Bf:0,0>")).isSome = true ∧ parseStatus s.variant (ascii "<>") = none ∧
    ascii "M2" ∈ s.par.pgmEnd ∧ ascii "M3" ∉ s.par.pgmEnd := by decide

/-- Status acquisition: a predicate that holds and one that fails on the reports of the worked lines. -/
theorem witness_AcquisitionFollowsItsTable :
    let s := inPhase .grbl11 (.busy .waitst (.read (.acq (.waitst .idle))))
    s.ph = .busy .waitst (.read (.acq (.waitst .idle))) ∧ Op.waitst ≠ .setvar ∧ Op.waitst ≠ .close ∧ s.noticeRoom = true ∧
    ({ s with par := { Params.suggested with nqMax := some 0 } } : State).noticeRoom = false ∧
    (parseStatus s.variant (ascii "<Idle|Bf:0,0>")).map (holds .idle) = some true ∧
    (parseStatus s.variant (ascii "<Run|Bf:0,0>")).map (holds .idle) = some false ∧ parseStatus s.variant (ascii "<>") = none := by
  decide

/-- The gates at the bounds of R177 and R178: `(9, 99)` and `(10, 0)`; with a line of 5 bytes `(3, 11)` and `(3, 10)`. -/
theorem witness_GateSendsOnlyOnAPassingReport :
    (inPhase .grbl09 (.busy .queue (.read (.acq (.gate (ascii "G0 X1")))))).ph = .busy .queue (.read (.acq (.gate (ascii "G0 X1")))) ∧
    (parseStatus .grbl09 (ascii "<Idle,Buf:9,RX:99>")).map (holds .gate09) = some true ∧
    (parseStatus .grbl09 (ascii "<Idle,Buf:10,RX:0>")).map (holds .gate09) = some false ∧
    (parseStatus .grbl11 (ascii "<Idle|Bf:3,11>")).map (holds (.gate11 5)) = some true ∧
    (parseStatus .grbl11 (ascii "<Idle|Bf:3,10>")).map (holds (.gate11 5)) = some false := by decide

/-- The Trinus and Marlin loops, with and without the mark, with and without room. -/
theorem witness_ReceiveLoops :
    resending.ph = .busy .queue (.read .recvTrinus) ∧ resending.variant = .trinus ∧ resending.resend = true ∧
    resending.noticeRoom = true ∧ ({ resending with resend := false } : State).resend = false ∧
    ({ resending with par := { Params.suggested with nqMax := some 0 } } : State).noticeRoom = false ∧
    (inPhase .marlin (.busy .feed (.read .recvMarlin))).ph = .busy .feed (.read .recvMarlin) := by decide

/-- The last and the first of the four reads, with a line and with a time-out. -/
theorem witness_ProgramEndReadsAreCounted :
    let s := inPhase .grbl09 (.busy .queue (.pgmEnd 1))
    s.ph = .busy .queue (.pgmEnd 1) ∧ (inPhase .grbl09 (.busy .queue (.pgmEnd 4))).ph = .busy .queue (.pgmEnd 4) ∧ s.inputs = [] ∧
    splitLine s.variant.term.bytes ({ s with rxbuf := [0x0D, 0x0A] } : State).rxbuf = some ([], []) ∧
    ({ s with inputs := [.timeout] } : State).inputs = .timeout :: [] ∧ hasLine s.variant.term.bytes s.rxbuf = false := by decide

theorem witness_UnreadLinesAreKept :
    (∀ op c, (inPhase .trinus .ready).ph = .busy op c → c.reads = false) ∧ (inPhase .trinus .ready).par.rxLineMax = none ∧
    (inPhase .trinus .ready).carrier = [] ∧ (inPhase .trinus .ready).link = true ∧
    (∀ op c, State.reset.ph = .busy op c → c.reads = false) ∧ State.reset.link = false :=
  ⟨fun _ _ h => by simp [inPhase] at h, rfl, rfl, rfl, fun _ _ h => by simp [State.reset, State.resetWith] at h, rfl⟩

theorem witness_CompletionEndsTheOperation :
    (inPhase .trinus (.busy .setvar .start)).ph = .busy .setvar .start ∧
    (inPhase .trinus (.busy .rdline .rdline)).ph = .busy .rdline .rdline ∧ Op.rdline ≠ .setvar ∧ Op.rdline ≠ .close ∧
    (inPhase .trinus .faulted).ph.isBusy = false := by decide

theorem witness_FatalErrorIsTakenAsOneStep : resending.ph.isBusy = true ∧ closing.ph.isBusy = false := by decide

/-- A time-out in a waiting loop, outside any read, and with a complete line there. -/
theorem witness_TimeoutLosesNothing :
    (cancelling.inputs = .timeout :: [] ∧ cancelling.ph = .busy .queue (.read (.ack (ascii "G0"))) ∧
      Loop.ack (ascii "G0") ≠ .drain ∧ hasLine cancelling.variant.term.bytes cancelling.rxbuf = false) ∧
    (∀ op c, closing.ph = .busy op c → c.reads = false) ∧
    hasLine resending.variant.term.bytes ({ resending with inputs := [.timeout] } : State).rxbuf = true :=
  ⟨by decide, fun _ _ h => by simp [closing, inPhase] at h, by decide⟩

theorem witness_PollEventStartsAFreshQuery :
    (inPhase .grbl09 (.busy .waitst (.sleep (.waitst .idle)))).ph = .busy .waitst (.sleep (.waitst .idle)) ∧
    ({ closing with inputs := [.poll] } : State).inputs = .poll :: [] ∧ ∀ op k, closing.ph ≠ .busy op (.sleep k) :=
  ⟨rfl, rfl, fun _ _ h => by simp [closing, inPhase] at h⟩

/-- A loop's and the sleep's cancel point, with the latch set and clear. -/
theorem witness_CancelPointEndsTheOperation :
    (inPhase .trinus (.busy .queue (.top .recvTrinus))).ph = .busy .queue (.top .recvTrinus) ∧
    (inPhase .grbl09 (.busy .waitst (.sleepTop (.waitst .idle)))).ph = .busy .waitst (.sleepTop (.waitst .idle)) ∧
    Op.queue ≠ .setvar ∧ Op.queue ≠ .close ∧ Op.waitst ≠ .setvar ∧ Op.waitst ≠ .close ∧
    (inPhase .trinus (.busy .queue (.top .recvTrinus))).inputs = [] ∧
    (inPhase .trinus (.busy .queue (.top .recvTrinus))).cancel = false ∧
    ({ inPhase .trinus (.busy .queue (.top .recvTrinus)) with cancel := true } : State).cancel = true := by decide

/-- The latch is set by the event, cleared at a cancel point, and cleared by the acceptance of CLOSE; a rejected OPEN leaves it. -/
theorem witness_CancelIsLatchedUntilConsumed :
    ({ closing with inputs := [.cancel] } : State).inputs = .cancel :: [] ∧ closing.cancel = false ∧
    (∃ t, step { closing with inputs := [.cancel] } = .next t ∧ t.cancel = true) ∧
    (∃ t, step { inPhase .trinus (.busy .queue (.top .recvTrinus)) with cancel := true } = .next t ∧ t.cancel = false) ∧
    (∃ t, step { closing with cancel := true } = .next t ∧ t.cancel = false) ∧ closing.resetNext = false ∧
    ({ closing with cancel := true } : State).presented = some .close ∧ ({ closing with cancel := true } : State).accepts .close = true ∧
    ∃ t, step { closing with cancel := true, port := [.op (HostOp.bare 0x02)] } = .next t ∧ t.cancel = true :=
  ⟨rfl, rfl, next_of_get (f := (·.cancel)) (by decide), next_of_get (f := (·.cancel)) (by decide),
    next_of_get (f := (·.cancel)) (by decide), by decide, by decide, by decide, next_of_get (f := (·.cancel)) (by decide)⟩

theorem witness_CancelIsHonouredWithinOneTimeout :
    cancelling.Inv ∧ cancelling.ph = .busy .queue (.read (.ack (ascii "G0"))) ∧ Loop.ack (ascii "G0") ≠ .drain ∧
    cancelling.cancel = true ∧ hasLine cancelling.variant.term.bytes cancelling.rxbuf = false ∧ cancelling.inputs = [.timeout] :=
  ⟨inv_cancelling, rfl, by decide, rfl, by decide, rfl⟩

/-- Room for all, with an unbounded RXBUF and up to the last byte of a finite one; room for none but a leading part; the link down;
a waiting read with and without bytes held back. -/
theorem witness_ArrivalAppendsToRxbuf :
    let s : State := { inPhase .trinus .ready with inputs := [.rx [0x6F], .rx [0x6B]] }
    let f : State := { s with par := { Params.suggested with rxLineMax := some 1 } }
    let r := inPhase .trinus (.busy .queue (.read .recvTrinus))
    s.inputs = .rx [0x6F] :: .rx [0x6B] :: [] ∧ s.link = true ∧ s.carrier = [] ∧ (∀ m, s.par.rxLineMax ≠ some m) ∧
    f.par.rxLineMax = some 1 ∧ f.rxbuf.length + (f.carrier ++ [0x6F]).length = 1 ∧
    f.rxbuf.length + ([0x6F] : Line).length = 1 ∧ ([0x6F, 0x6B] : Line) = [0x6F] ++ [0x6B] ∧
    ({ State.reset with inputs := [.rx [0x6F]] } : State).link = false ∧
    r.ph = .busy .queue (.read .recvTrinus) ∧ (Ctl.read .recvTrinus).reads = true ∧ r.inputs = [] ∧
    hasLine r.variant.term.bytes r.rxbuf = false ∧ r.carrier = [] ∧ ({ r with carrier := [0x6F] } : State).carrier ≠ [] := by
  refine ⟨rfl, rfl, rfl, fun m h => ?_, rfl, rfl, rfl, rfl, rfl, rfl, rfl, rfl, rfl, rfl, by decide⟩
  cases h

/-- RXBUF full without and with a complete line. -/
theorem witness_FullRxbufOverrunsOrHoldsBack :
    (full [0x6F, 0x6B]).par.rxLineMax = some 2 ∧ (full [0x6F, 0x6B]).rxbuf.length = 2 ∧ (full [0x6F, 0x6B]).link = true ∧
    (full [0x6F, 0x6B]).carrier = [] ∧ (full [0x6F, 0x6B]).inputs = .rx (0x0A :: []) :: [] ∧
    hasLine (full [0x6F, 0x6B]).variant.term.bytes (full [0x6F, 0x6B]).rxbuf = false ∧
    hasLine (full [0x0D, 0x0A]).variant.term.bytes (full [0x0D, 0x0A]).rxbuf = true := by decide

theorem witness_ResetStateIsAsSpecified : ({ resending with inputs := [.reset] } : State).inputs = .reset :: [] := by decide

/-- A changed byte, bytes below `80`, and a permutation. -/
theorem witness_ChecksumLaws : (0x31 : Byte) ≠ 0x32 ∧ (∀ b ∈ ascii "G0", b.toNat < 0x80) ∧ (ascii "ab").Perm (ascii "ba") := by decide

/-- A line of each branch of the transform: suppressed, display with either source, with a star, and checksummed. -/
theorem witness_TransformedLineIsStable :
    let o : Params := { Params.suggested with m117 := .original }
    shorten Params.suggested (ascii "G0 X1 ;") = .send (ascii "G0 X1 *30") ∧
    ¬ [0x4D, 0x31, 0x31, 0x37] <+: strip (ascii "G0 X1 ;") ∧ (0x2A : Byte) ∉ strip (ascii "G0 X1 ;") ∧
    ascii "G0 X1 *30" ∉ Params.suggested.blocklist ∧ strip (ascii "G0 X1 ;") ≠ [0x47, 0x32, 0x31] ∧
    strip (ascii "G0 X1 ;") ∉ Params.suggested.blockMore ∧ strip (ascii "G21 ; mm") = [0x47, 0x32, 0x31] ∧
    [0x4D, 0x31, 0x31, 0x37] <+: strip (ascii "M117 ;") ∧ Params.suggested.m117 = .stripped ∧ o.m117 = .original ∧
    shorten o (ascii "M117 ;") = .send (ascii "M117 ;") ∧
    ¬ [0x4D, 0x31, 0x31, 0x37] <+: strip (ascii "G0*9") ∧ (0x2A : Byte) ∈ strip (ascii "G0*9") ∧
    (strip (ascii "G0 ")).getLast? = some 0x30 := by decide

theorem witness_DialectsExcludeEachOther :
    (parseStatus .grbl09 (ascii "<Idle,Buf:0,RX:0>")).isSome = true ∧ (parseStatus .grbl11 (ascii "<Idle|Bf:15,128>")).isSome = true := by
  decide

/-- A state that meets the invariant and steps, here by the resend. -/
theorem witness_EveryStepKeepsTheInvariant : resending.Inv ∧ ∃ t, step resending = .next t ∧ t.txout = [0x41, 0x0A] :=
  ⟨inv_resending, next_of_get (f := (·.txout)) (by decide)⟩

/-- The same step meets the hypotheses of the statements about any step that is no reset (TransmittedBytesStay,
RxbufIsConsumedInOrder, NoticesAreFirstInFirstOut, OutputsAreNeverRead). -/
theorem witness_OnlyAResendTransmitsWhileALineIsAwaited :
    resending.ph = .busy .queue (.read .recvTrinus) ∧ (Ctl.read .recvTrinus).awaitsAck = true ∧ resending.resetNext = false ∧
    ∃ t, step resending = .next t ∧ t.txout ≠ resending.txout := by
  obtain ⟨t, h1, h2⟩ := witness_EveryStepKeepsTheInvariant.2
  exact ⟨rfl, rfl, rfl, t, h1, by rw [h2]; decide⟩

/-- INFLIGHT set by a QUEUE from the port and by a report that passes the gate, and cleared by the acknowledgment, by a fatal error
and by TOPEN. -/
theorem witness_InflightFollowsTheLine :
    closing.Inv ∧ closing.inflight = false ∧
    (∃ t, step { closing with port := [.op { HostOp.bare 0x04 with line := ascii "G0" }] } = .next t ∧ t.inflight = true) ∧
    (∃ t, step { inPhase .grbl11 (.busy .queue (.read (.acq (.gate (ascii "G0"))))) with
        rxbuf := ascii "<Idle|Bf:3,8>" ++ [0x0D, 0x0A] } = .next t ∧ t.inflight = true) ∧
    resending.Inv ∧ resending.inflight = true ∧
    (∃ t, step { resending with resend := false } = .next t ∧ t.inflight = false) ∧
    (∃ t, step { resending with rxbuf := ascii "[ERROR]" ++ [0x0A] } = .next t ∧ t.inflight = false) ∧
    ∃ t, step { State.reset with inflight := true, port := [.op (HostOp.bare 0x09)] } = .next t ∧ t.inflight = false :=
  ⟨inv_closing, rfl, next_of_get (f := (·.inflight)) (by decide), next_of_get (f := (·.inflight)) (by decide),
    inv_resending, rfl, next_of_get (f := (·.inflight)) (by decide), next_of_get (f := (·.inflight)) (by decide),
    next_of_get (f := (·.inflight)) (by decide)⟩

theorem witness_ConfigurationChangesOnlyInClosed :
    ∃ t, step { State.reset with port := [.op { HostOp.bare 0x01 with v := 2 }] } = .next t ∧ t.variant = .trinus :=
  next_of_get (f := (·.variant)) (by decide)

theorem witness_FaultedIsLeftOnlyByClose :
    aborted.Inv ∧ aborted.ph = .faulted ∧ aborted.resetNext = false ∧ ∃ t, step aborted = .next t ∧ t.ph = .closed :=
  ⟨inv_aborted, rfl, rfl, next_of_get (f := (·.ph)) (by decide)⟩

theorem witness_UnreadReportRegistersAreInvisible :
    closing.stValid = false ∧ ∃ t, step closing = .next t ∧ t.ph = .closed :=
  ⟨rfl, next_of_get (f := (·.ph)) (by decide)⟩

end Sys2Proof.Tests
end

section
/-!
Single steps (R27, R28, R32, R34, R62, R140): what an idle step runs, what a completion row and a class row outside a read do,
and what reset leaves.
-/

namespace Sys2Proof.Machine

variable {s : State}

/-! ## The presented instruction -/

/-- Every operation record decodes to a well-formed instruction (R60, R82). -/
theorem hostOp_decode_wf (r : HostOp) (v : Variant) : r.decode.wf v = true := by
  unfold HostOp.decode
  split
  case h_12 =>
    simp only [imp_false] at *
    simp only [Instr.wf, isUnassigned, Bool.or_eq_true, beq_iff_eq, decide_eq_true_eq]
    omega
  all_goals rfl

theorem portOp_decode_wf (p : PortOp) (v : Variant) : p.decode.wf v = true := by
  cases p with
  | op r => exact hostOp_decode_wf r v
  | pseudo q => cases q <;> rfl

theorem sequencerMove_idle (hb : s.ph.isBusy = false) : sequencerMove s = idleStep s := by
  unfold sequencerMove
  split
  · rename_i hp
    simp [hp, Phase.isBusy] at hb
  all_goals rfl

/-- With no job under way the idle step runs what stands on the port (R27, R140). -/
theorem idleStep_port {p : PortOp} {ps : List PortOp} (hj : s.job = []) (hp : s.port = p :: ps) :
    idleStep s = exec p.decode { s with port := ps } := by
  simp [idleStep, hj, hp]

/-- With nothing to do the block waits (R261). -/
theorem idleStep_waits (hj : s.job = []) (hp : s.port = []) : idleStep s = .next s := by
  simp [idleStep, hj, hp]

/-- Settles O1: an idle step with no job is `exec` of what the port holds. -/
theorem stepRunsThePresentedInstruction : Obligations.StepRunsThePresentedInstruction := by
  intro s hb hj
  refine ⟨fun p ps hp => ⟨portOp_decode_wf p, fun hi => ?_, fun es hi => ?_⟩, fun hp hi => ?_⟩
  · simp only [step, hi]
    rw [sequencerMove_idle hb, idleStep_port hj hp]
  · simp only [step, hi, environment]
    rw [sequencerMove_idle (s := { s with inputs := es }) hb, idleStep_port (s := { s with inputs := es }) hj hp]
  · simp only [step, hi]
    rw [sequencerMove_idle hb, idleStep_waits hj hp]

/-! ## Lines that no read waits for -/

/-- No read waits. -/
def State.unread (s : State) : Prop := ∀ op c, s.ph = .busy op c → c.reads = false

/-- A line that no read waits for arrives (R32, R270). -/
theorem receive_unread (raw : Line) (h : s.unread) : receive raw s = s.deviceSends (raw ++ s.term) := by
  unfold receive
  split
  · rename_i op c hp
    have hc := h op c hp
    cases c with
    | read l => cases hc
    | pgmEnd n => cases hc
    | rdline => cases hc
    | _ => rfl
  all_goals rfl

theorem receiveGrbl_unread (c : GClass) (raw : Line) (h : s.unread) :
    receiveGrbl c raw s = s.deviceSends (raw ++ s.term) := by
  rw [← receive_unread raw h]
  unfold receiveGrbl
  split
  · rename_i hp
    cases h _ _ hp
  · rename_i hp
    cases h _ _ hp
  · rfl

theorem receiveTrinus_unread (c : TClass) (raw : Line) (h : s.unread) :
    receiveTrinus c raw s = s.deviceSends (raw ++ s.term) := by
  rw [← receive_unread raw h]
  unfold receiveTrinus
  split
  · rename_i hp
    cases h _ _ hp
  · rfl

theorem receiveMarlin_unread (c : MClass) (raw : Line) (h : s.unread) :
    receiveMarlin c raw s = s.deviceSends (raw ++ s.term) := by
  rw [← receive_unread raw h]
  unfold receiveMarlin
  split
  · rename_i hp
    cases h _ _ hp
  · rfl

/-- With an unbounded RXBUF what arrives over an open link is appended (R102). -/
theorem deviceSends_unbounded (d : Line) (hl : s.link = true) (hm : s.par.rxLineMax = none) (hc : s.carrier = []) :
    s.deviceSends d = { s with rxbuf := s.rxbuf ++ d } := by
  rw [deviceSends_carrier d hl, arrive_unbounded (s := { s with carrier := [] }) hm, hc]
  rcases s with ⟨_, ⟨_, carrier, _, _⟩⟩
  cases hc
  rfl

/-- Settles O31: each listed row is `receive`, which outside a read is an arrival. -/
theorem unreadLinesAreKept : Obligations.UnreadLinesAreKept := by
  intro raw s hu hm hc i hi
  have arrives : exec i s = .next (s.deviceSends (raw ++ s.term)) := by
    have grbl : ∀ c, (.next (receiveGrbl c raw s) : Host.Outcome State Fault Refusal)
        = .next (s.deviceSends (raw ++ s.term)) := fun c => by rw [receiveGrbl_unread c raw hu]
    have trinus : ∀ c, (.next (receiveTrinus c raw s) : Host.Outcome State Fault Refusal)
        = .next (s.deviceSends (raw ++ s.term)) := fun c => by rw [receiveTrinus_unread c raw hu]
    have marlin : ∀ c, (.next (receiveMarlin c raw s) : Host.Outcome State Fault Refusal)
        = .next (s.deviceSends (raw ++ s.term)) := fun c => by rw [receiveMarlin_unread c raw hu]
    rcases hi with rfl | rfl | rfl | rfl | rfl | rfl | rfl | rfl | ⟨rfl, rfl | rfl | rfl⟩ | ⟨rfl, rfl⟩
    · exact grbl _
    · exact grbl _
    · exact grbl _
    · exact trinus _
    · exact trinus _
    · exact trinus _
    · exact marlin _
    · exact marlin _
    · exact grbl _
    · exact trinus _
    · exact marlin _
    · exact trinus _
  refine ⟨fun hl => ?_, fun hl => ?_⟩
  · rw [arrives, deviceSends_unbounded _ hl hm hc, List.append_assoc]
    rfl
  · rw [arrives, deviceSends_down _ hl]

/-! ## Completion rows -/

theorem endPhase_not_busy (op : Op) : op.endPhase.isBusy = false := by cases op <;> rfl

/-- Only SETVAR and CLOSE end in CLOSED (R151). -/
theorem endPhase_ready {op : Op} (h1 : op ≠ .setvar) (h2 : op ≠ .close) : op.endPhase = .ready := by
  cases op with
  | setvar => exact absurd rfl h1
  | close => exact absurd rfl h2
  | _ => rfl

theorem complete_busy {op : Op} {k : Ctl} (c : Completion) (hp : s.ph = .busy op k) :
    s.complete c = { s with completion := some c, ph := op.endPhase } := by
  simp [State.complete, hp, Phase.afterCompletion]

/-- Settles O32: each listed row is `complete`, CANCELLED after the latch is cleared. -/
theorem completionEndsTheOperation : Obligations.CompletionEndsTheOperation := by
  intro i c s hi
  have row : exec i s = .next (s.complete c) := by
    rcases hi with ⟨p, rfl, rfl⟩ | ⟨rfl, rfl⟩ | ⟨rfl, rfl⟩ | ⟨rfl, rfl⟩ | ⟨rfl, rfl⟩ | ⟨rfl, rfl⟩ | ⟨r, rfl, rfl⟩ <;> rfl
  have cancelled : exec .cplCancelled s = .next (s.clearCancel.complete .cancelled) := rfl
  rw [row, cancelled]
  refine ⟨fun op k hp hop => ?_, fun op k hp h1 h2 => ?_, fun hb => ?_⟩
  · have he : op.endPhase = .closed := by rcases hop with rfl | rfl <;> rfl
    rw [complete_busy c hp, complete_busy (s := s.clearCancel) .cancelled hp, he]
    exact ⟨rfl, rfl⟩
  · rw [complete_busy c hp, complete_busy (s := s.clearCancel) .cancelled hp, endPhase_ready h1 h2]
    exact ⟨rfl, rfl⟩
  · rw [complete_idle c hb, complete_idle (s := s.clearCancel) .cancelled hb]
    exact ⟨rfl, rfl⟩

/-! ## Reset -/

/-- A reset event leaves the reset state, but for the build parameters, the host's port and the rest of the schedule (R260). -/
theorem step_reset {es : List Input} (hi : s.inputs = .reset :: es) :
    step s = .next { State.reset with par := s.par, port := s.port, inputs := es } := by
  simp only [step, hi]
  rfl

/-- Settles O41: both parts by computation. -/
theorem resetStateIsAsSpecified : Obligations.ResetStateIsAsSpecified :=
  ⟨rfl, rfl, rfl, rfl, rfl, rfl, rfl, rfl, rfl, rfl, rfl, rfl, rfl, rfl, rfl, rfl, rfl, rfl,
    fun s _ hi => ⟨State.reset.st, s.par, s.port, step_reset hi⟩⟩

end Sys2Proof.Machine
end

section
/-!
The checksum suffix and the transform (R69, R70, R120 to R131): what `dec`, `strip` and `ckAppend` give, and why a checksummed
line verifies and passes through the transform again unchanged.
-/

namespace Sys2Proof

/-! ## Decimal digits -/

theorem digit_toNat (n : Nat) : (digit n).toNat = 0x30 + n % 10 := by
  simp only [digit, BitVec.toNat_ofNat]
  omega

theorem isDigit_digit (n : Nat) : isDigit (digit n) = true := by
  simp only [isDigit, digit_toNat, Bool.and_eq_true, decide_eq_true_eq]
  omega

/-- A digit is none of the bytes outside `0..9`. -/
theorem digit_ne {n : Nat} {b : Byte} (h : isDigit b = false) : digit n ≠ b := by
  rintro rfl
  simp [isDigit_digit] at h

/-- Enough fuel does not show, and what stands behind the digits stays behind them. -/
theorem decGo_eq {n fuel : Nat} (acc : Line) (h : n < fuel) : decGo fuel n acc = dec n ++ acc := by
  induction n using Nat.strong_induction_on generalizing fuel acc with
  | _ n ih =>
    obtain ⟨f, rfl⟩ : ∃ f, fuel = f + 1 := ⟨fuel - 1, by omega⟩
    unfold dec
    simp only [decGo]
    split
    · rfl
    · rw [ih (n / 10) (by omega) _ (by omega), ih (n / 10) (by omega) _ (by omega)]
      simp

theorem dec_of_lt {n : Nat} (h : n < 10) : dec n = [digit n] := by
  simp [dec, decGo, h]

theorem dec_of_ge {n : Nat} (h : 10 ≤ n) : dec n = dec (n / 10) ++ [digit n] := by
  rw [dec, decGo, if_neg (by omega), decGo_eq _ (by omega)]

/-- The value of a string of digits and one more digit (R70). -/
theorem num_concat (s : Line) (b : Byte) : num (s ++ [b]) = 10 * num s + (b.toNat - 0x30) := by
  simp [num]

/-- The decimal rendering reads back as the number (R69, R70). -/
theorem num_dec (n : Nat) : num (dec n) = n := by
  induction n using Nat.strong_induction_on with
  | _ n ih =>
    rcases Nat.lt_or_ge n 10 with h | h
    · rw [dec_of_lt h, ← List.nil_append [digit n], num_concat, digit_toNat]
      simp [num]
      omega
    · rw [dec_of_ge h, num_concat, ih (n / 10) (by omega), digit_toNat]
      omega

theorem dec_all_isDigit (n : Nat) : (dec n).all isDigit = true := by
  induction n using Nat.strong_induction_on with
  | _ n ih =>
    rcases Nat.lt_or_ge n 10 with h | h
    · simp [dec_of_lt h, isDigit_digit]
    · simp [dec_of_ge h, isDigit_digit, ih (n / 10) (by omega)]

/-- The last byte of a decimal rendering is the last digit. -/
theorem dec_getLast? (n : Nat) : (dec n).getLast? = some (digit n) := by
  rcases Nat.lt_or_ge n 10 with h | h
  · simp [dec_of_lt h]
  · simp [dec_of_ge h]

/-- A byte's decimal rendering is 1 to 3 digits with no leading zero (R123). -/
theorem isCkDigits_dec {n : Nat} (h : n < 256) : isCkDigits (dec n) = true := by
  have nonzero : ∀ k, 1 ≤ k → k < 10 → digit k ≠ 0x30 := by
    intro k h1 h2 he
    have := congrArg BitVec.toNat he
    rw [digit_toNat] at this
    simp at this
    omega
  unfold isCkDigits
  rw [dec_all_isDigit]
  rcases Nat.lt_or_ge n 10 with h1 | h1
  · simp [dec_of_lt h1]
  · rcases Nat.lt_or_ge n 100 with h2 | h2
    · have h10 := dec_of_lt (show n / 10 < 10 by omega)
      simpa [dec_of_ge h1, h10] using nonzero (n / 10) (by omega) (by omega)
    · have h10 := dec_of_ge (show 10 ≤ n / 10 by omega)
      have h100 := dec_of_lt (show n / 10 / 10 < 10 by omega)
      simpa [dec_of_ge h1, h10, h100] using nonzero (n / 10 / 10) (by omega) (by omega)

theorem dec_length_le_three {n : Nat} (h : n < 256) : (dec n).length ≤ 3 := by
  have := isCkDigits_dec h
  simp only [isCkDigits, Bool.and_eq_true, decide_eq_true_eq] at this
  exact this.1.1.2

/-! ## The checksum suffix -/

/-- A string is cut at the star before a part without stars (R87). -/
theorem splitLastStar_append {d : Line} (t : Line) (h : (0x2A : Byte) ∉ d) :
    splitLastStar (t ++ 0x2A :: d) = some (t, d) := by
  have none_of : ∀ d : Line, (0x2A : Byte) ∉ d → splitLastStar d = none := by
    intro d hd
    induction d with
    | nil => rfl
    | cons b bs ih =>
      simp only [List.mem_cons, not_or] at hd
      rw [splitLastStar, ih hd.2]
      exact if_neg (Ne.symm hd.1)
  induction t with
  | nil => simp [splitLastStar, none_of d h]
  | cons b bs ih => rw [List.cons_append, splitLastStar, ih]

theorem ckAppend_eq (t : Line) : ckAppend t = (t ++ [0x20]) ++ 0x2A :: dec (CK t).toNat := by simp [ckAppend]

theorem star_not_mem_dec (n : Nat) : (0x2A : Byte) ∉ dec n := by
  intro h
  have := List.all_eq_true.mp (dec_all_isDigit n) _ h
  exact absurd this (by decide)

/-- Every checksummed text verifies (R123). -/
theorem ckVerify_ckAppend (t : Line) : ckVerify (ckAppend t) = true := by
  have hc : xorAll (t ++ [0x20]) = CK t := by simp [xorAll, CK]
  rw [ckVerify, ckAppend_eq, splitLastStar_append _ (star_not_mem_dec _)]
  simp only [hc, num_dec, isCkDigits_dec (CK t).isLt, List.getLast?_concat, beq_self_eq_true, Bool.and_self]

theorem ckAppend_length (t : Line) : (ckAppend t).length ≤ t.length + 5 := by
  have := dec_length_le_three (CK t).isLt
  simp [ckAppend]
  omega

/-! ## Stripping -/

theorem isWS_iff (b : Byte) : isWS b = true ↔ (0x09 ≤ b.toNat ∧ b.toNat ≤ 0x0D) ∨ b = 0x20 := by simp [isWS]

/-- No `;` stands in what is left of a line without its comment (R125). -/
theorem semicolon_not_mem_stripComment (l : Line) : (0x3B : Byte) ∉ stripComment l := by
  intro h
  simpa using List.mem_takeWhile_imp h

/-- The stripped text begins the line (R125, R126). -/
theorem strip_prefix (l : Line) : strip l <+: l := (List.rdropWhile_prefix _ _).trans (List.takeWhile_prefix _)

theorem semicolon_not_mem_strip (l : Line) : (0x3B : Byte) ∉ strip l := fun h =>
  semicolon_not_mem_stripComment l ((List.rdropWhile_prefix _ _).subset h)

/-- The stripped text does not end in whitespace (R126). -/
theorem strip_getLast? {l : Line} {b : Byte} (h : (strip l).getLast? = some b) : isWS b = false := by
  have hne : strip l ≠ [] := by rintro he; simp [he] at h
  have hl := List.rdropWhile_last_not isWS (stripComment l) hne
  rw [List.getLast?_eq_getLast_of_ne_nil hne] at h
  cases h
  exact Bool.eq_false_iff.mpr hl

/-- A text without a comment that ends in no whitespace is its own stripped text. -/
theorem strip_eq_self {t : Line} {b : Byte} (hc : (0x3B : Byte) ∉ t) (hb : t.getLast? = some b) (hw : isWS b = false) :
    strip t = t := by
  have h1 : stripComment t = t := by
    refine List.takeWhile_eq_self_iff.mpr fun x hx => ?_
    simp only [bne_iff_ne]
    rintro rfl
    exact hc hx
  unfold strip stripTrailingWS
  rw [h1]
  refine List.rdropWhile_eq_self_iff.mpr fun hne => ?_
  rw [List.getLast?_eq_getLast_of_ne_nil hne] at hb
  cases hb
  simp [hw]

/-- What is cut off a line: whitespace, and then nothing or a comment (R125, R126). -/
theorem strip_decompose (l : Line) : ∃ w c, l = strip l ++ w ++ c ∧ (0x3B : Byte) ∉ strip l ++ w ∧
    (c = [] ∨ ∃ r, c = 0x3B :: r) ∧ ∀ b ∈ w, isWS b = true := by
  have hw : strip l ++ (stripComment l).rtakeWhile isWS = stripComment l := List.rdropWhile_append_rtakeWhile
  refine ⟨(stripComment l).rtakeWhile isWS, l.dropWhile fun b => b != 0x3B, ?_, ?_, ?_,
    fun b hb => List.mem_rtakeWhile_imp hb⟩
  · rw [hw]
    exact List.takeWhile_append_dropWhile.symm
  · rw [hw]
    exact semicolon_not_mem_stripComment l
  · cases hd : l.dropWhile fun b => b != 0x3B with
    | nil => exact .inl rfl
    | cons x r =>
      have hx := List.head?_dropWhile_not (fun b : Byte => b != 0x3B) l
      rw [hd] at hx
      exact .inr ⟨r, congrArg (· :: r) (by simpa using hx)⟩

/-- A checksummed text is its own stripped text, for it holds no comment and ends in a digit (R130). -/
theorem strip_ckAppend {t : Line} (h : (0x3B : Byte) ∉ t) : strip (ckAppend t) = ckAppend t := by
  refine strip_eq_self (b := digit (CK t).toNat) ?_ ?_ ?_
  · have hd : (0x3B : Byte) ∉ dec (CK t).toNat := fun hm =>
      absurd (List.all_eq_true.mp (dec_all_isDigit _) _ hm) (by decide)
    simpa [ckAppend] using ⟨h, hd⟩
  · rw [ckAppend, List.getLast?_append, dec_getLast?]
    rfl
  · have := digit_toNat (CK t).toNat
    simp only [isWS, Bool.or_eq_false_iff, Bool.and_eq_false_iff, decide_eq_false_iff_not, beq_eq_false_iff_ne]
    exact ⟨.inr (by omega), digit_ne (by decide)⟩

/-- A word without a space that begins a text and its suffix begins the text. -/
theorem prefix_of_prefix_append_space {p t r : Line} (hp : (0x20 : Byte) ∉ p) (h : p <+: t ++ 0x20 :: r) : p <+: t := by
  rcases Nat.lt_or_ge t.length p.length with hl | hl
  · have hs : t ++ [0x20] <+: p := List.prefix_of_prefix_length_le ⟨r, by simp⟩ h (by simpa using hl)
    exact absurd (hs.subset (by simp)) hp
  · exact List.prefix_of_prefix_length_le h (List.prefix_append _ _) hl

/-! ## The transform -/

theorem m117Prefix_eq : m117Prefix = [0x4D, 0x31, 0x31, 0x37] := by decide

theorem mem_blocklist (p : Params) (t : Line) : t ∈ p.blocklist ↔ t = [0x47, 0x32, 0x31] ∨ t ∈ p.blockMore := by
  have hg : ascii "G21" = [0x47, 0x32, 0x31] := by decide
  simp [Params.blocklist, hg]

/-- Everything the transform can give, with the tests that decide it (R124). -/
theorem shorten_cases (p : Params) (l : Line) :
    (strip l ∈ p.blocklist ∧ shorten p l = .suppress) ∨
    (strip l ∉ p.blocklist ∧ m117Prefix <+: strip l ∧ shorten p l = .send (display p l (strip l))) ∨
    (strip l ∉ p.blocklist ∧ ¬ m117Prefix <+: strip l ∧ (0x2A : Byte) ∈ strip l ∧ shorten p l = .send (strip l)) ∨
    (strip l ∉ p.blocklist ∧ ¬ m117Prefix <+: strip l ∧ (0x2A : Byte) ∉ strip l ∧
      shorten p l = .send (ckAppend (strip l))) := by
  unfold shorten
  simp only [List.contains_iff_mem, isPrefix_iff]
  split_ifs with hb hm hs
  · exact .inl ⟨hb, rfl⟩
  · exact .inr (.inl ⟨hb, hm, rfl⟩)
  · exact .inr (.inr (.inl ⟨hb, hm, hs, rfl⟩))
  · exact .inr (.inr (.inr ⟨hb, hm, hs, rfl⟩))

/-- What the transform sends is at most 5 bytes longer than the line (R17). -/
theorem shorten_length {p : Params} {l u : Line} (h : shorten p l = .send u) : u.length ≤ l.length + 5 := by
  have hs := (strip_prefix l).length_le
  rcases shorten_cases p l with ⟨_, e⟩ | ⟨_, _, e⟩ | ⟨_, _, _, e⟩ | ⟨_, _, _, e⟩ <;> rw [e] at h <;> cases h
  · unfold display
    split <;> omega
  · omega
  · have := ckAppend_length (strip l)
    omega

/-- A checksummed line passes through the transform unchanged, unless it is itself suppressed (R130). -/
theorem shorten_ckAppend {p : Params} {t : Line} (hc : (0x3B : Byte) ∉ t) (hm : ¬ m117Prefix <+: t)
    (hb : ckAppend t ∉ p.blocklist) : shorten p (ckAppend t) = .send (ckAppend t) := by
  have hs := strip_ckAppend hc
  have hm' : ¬ m117Prefix <+: ckAppend t := fun h =>
    hm (prefix_of_prefix_append_space (r := 0x2A :: dec (CK t).toNat) (by decide) (by simpa [ckAppend] using h))
  have hstar : (0x2A : Byte) ∈ ckAppend t := by simp [ckAppend]
  rcases shorten_cases p (ckAppend t) with ⟨h, _⟩ | ⟨_, h, _⟩ | ⟨_, _, _, e⟩ | ⟨_, _, h, _⟩ <;> rw [hs] at *
  · exact absurd h hb
  · exact absurd h hm'
  · exact e
  · exact absurd hstar h

/-- Settles O44, by the cases of `shorten_cases`. -/
theorem transformedLineIsStable : Obligations.TransformedLineIsStable := by
  intro p l
  have cases_of := shorten_cases p l
  rw [m117Prefix_eq, mem_blocklist] at cases_of
  refine ⟨?_, ?_, ?_, ?_⟩
  · obtain ⟨w, c, hl, hn, hc, hw⟩ := strip_decompose l
    refine ⟨w, c, hl, hn, hc, fun b hb => (isWS_iff b).mp (hw b hb), fun b hb hws => ?_⟩
    rw [← isWS_iff, strip_getLast? hb] at hws
    cases hws
  · rcases cases_of with ⟨h, e⟩ | ⟨h, _, e⟩ | ⟨h, _, _, e⟩ | ⟨h, _, _, e⟩ <;> simp only [e, h]
    all_goals simp
  · intro h1 h2
    have hb : ¬ (strip l = [0x47, 0x32, 0x31] ∨ strip l ∈ p.blockMore) := not_or.mpr ⟨h1, h2⟩
    rcases cases_of with ⟨h, e⟩ | ⟨_, hm, e⟩ | ⟨_, hm, hs, e⟩ | ⟨_, hm, hs, e⟩
    · exact absurd h hb
    · refine ⟨fun _ hd => ?_, fun _ hd => ?_, fun h => absurd hm h, fun h => absurd hm h⟩ <;> rw [e, display, hd]
    · exact ⟨fun h => absurd h hm, fun h => absurd h hm, fun _ _ => e, fun _ h => absurd hs h⟩
    · exact ⟨fun h => absurd h hm, fun h => absurd h hm, fun _ h => absurd h hs, fun _ _ => e⟩
  · intro u hu
    refine ⟨shorten_length hu, fun hm hs => ?_⟩
    rcases cases_of with ⟨_, e⟩ | ⟨_, h, _⟩ | ⟨_, _, h, _⟩ | ⟨_, _, _, e⟩
    · rw [e] at hu
      cases hu
    · exact absurd h hm
    · exact absurd h hs
    · rw [e] at hu
      cases hu
      exact ⟨ckVerify_ckAppend _, shorten_ckAppend (semicolon_not_mem_strip l) (m117Prefix_eq ▸ hm)⟩

end Sys2Proof
end

section
/-!
The buffer numbers of a parsed report have at most nine digits (R22, R76).
-/

namespace Sys2Proof

/-- A string of `k` digits stands for a number below `10 ^ k` (R70). -/
theorem num_lt {s : Line} (h : ∀ b ∈ s, isDigit b = true) : num s < 10 ^ s.length := by
  induction s using List.reverseRecOn with
  | nil => simp [num]
  | append_singleton s b ih =>
    have hb : b.toNat ≤ 0x39 := by
      have := h b (by simp)
      simp only [isDigit, Bool.and_eq_true, decide_eq_true_eq] at this
      exact this.2
    have := ih fun c hc => h c (by simp [hc])
    rw [num_concat, List.length_append, List.length_singleton, Nat.pow_succ]
    omega

/-- The value of a `UINT` (R76). -/
theorem takeUint_le {s r : Line} {n : Num} (h : takeUint s = some (n, r)) : n.toNat ≤ 999999999 := by
  unfold takeUint at h
  dsimp only at h
  split at h
  · rename_i hl
    cases h
    have h1 : num (s.takeWhile isDigit) < 10 ^ 9 :=
      (num_lt fun b hb => List.mem_takeWhile_imp hb).trans_le (Nat.pow_le_pow_right (by decide) hl.2)
    rw [BitVec.toNat_ofNat]
    exact (Nat.mod_le _ _).trans (by omega)
  · cases h

/-- Both buffer numbers have at most nine digits (R22). -/
def NumbersFit (p : Num × Num) : Prop := p.1.toNat ≤ 999999999 ∧ p.2.toNat ≤ 999999999

theorem takePair_fit {s r : Line} {p : Num × Num} (h : takePair s = some (p, r)) : NumbersFit p := by
  simp only [takePair, Option.bind_eq_bind, Option.bind_eq_some_iff, Option.pure_def, Option.some.injEq, Prod.mk.injEq,
    Prod.exists] at h
  obtain ⟨_, _, h1, _, _, _, _, h2, rfl, _⟩ := h
  exact ⟨takeUint_le h1, takeUint_le h2⟩

theorem parse09_fit {t : Line} {rep : StatusReport} (h : parse09 t = some rep) : NumbersFit (rep.cmdbuf, rep.rxbuf) := by
  simp only [parse09, Option.bind_eq_bind, Option.bind_eq_some_iff, Option.pure_def, Prod.exists] at h
  obtain ⟨_, -, _, _, -, _, _, -, _, _, -, _, -, c, _, hc, _, -, r, _, hr, _, _, -, _, _, -, h⟩ := h
  split at h
  · cases h
    exact ⟨takeUint_le hc, takeUint_le hr⟩
  · cases h

theorem whole_eq_some {α : Type} {r : Option (α × Line)} {x : α} (h : whole r = some x) : r = some (x, []) := by
  unfold whole at h
  split at h
  · cases h
    rfl
  · cases h

/-- A field that is set once holds the new value. -/
theorem setOnce_eq_some {α : Type} {old new x : Option α} (h : setOnce old new = some x) : x = new := by
  unfold setOnce at h
  split at h
  · exact (Option.some.inj h).symm
  · cases h

/-- A field of a Grbl 1.1 report leaves the buffer numbers alone or sets numbers that fit (R78). -/
theorem field11_fit {f g : Fields11} {s : Line} (h : field11 f s = some g) (hf : ∀ p, f.bf = some p → NumbersFit p) :
    ∀ p, g.bf = some p → NumbersFit p := by
  simp only [field11, Option.bind_eq_bind, Option.bind_eq_some_iff, Option.pure_def, Prod.exists] at h
  obtain ⟨key, rest, -, val, -, h⟩ := h
  split at h
  · obtain ⟨bf, hb, hg⟩ := Option.bind_eq_some_iff.mp h
    cases hg
    rintro p rfl
    exact takePair_fit (whole_eq_some (setOnce_eq_some hb).symm)
  · have kept : g.bf = f.bf := by
      split_ifs at h
      case neg => cases h; rfl
      all_goals
        obtain ⟨x, -, hg⟩ := Option.bind_eq_some_iff.mp h
        cases hg
        rfl
    rwa [kept]

theorem fields11_fit {fs : List Line} {f g : Fields11} (h : fields11 f fs = some g)
    (hf : ∀ p, f.bf = some p → NumbersFit p) : ∀ p, g.bf = some p → NumbersFit p := by
  induction fs generalizing f with
  | nil =>
    cases h
    exact hf
  | cons s ss ih =>
    obtain ⟨f', h1, h2⟩ := Option.bind_eq_some_iff.mp h
    exact ih h2 (field11_fit h1 hf)

theorem parse11_fit {t : Line} {rep : StatusReport} (h : parse11 t = some rep) : NumbersFit (rep.cmdbuf, rep.rxbuf) := by
  unfold parse11 at h
  split at h
  · split at h
    · cases h
    · simp only [Option.bind_eq_bind, Option.bind_eq_some_iff, Option.pure_def, Prod.exists] at h
      obtain ⟨_, _, -, f, hf, c, r, hb, h⟩ := h
      cases h
      exact fields11_fit hf (fun p hp => by cases hp) _ hb
  · cases h

/-- The buffer numbers of a parsed report fit, whatever the dialect (R22). -/
theorem parseStatus_fit {v : Variant} {t : Line} {rep : StatusReport} (h : parseStatus v t = some rep) :
    NumbersFit (rep.cmdbuf, rep.rxbuf) := by
  cases v with
  | grbl09 => exact parse09_fit h
  | grbl11 => exact parse11_fit h
  | trinus => cases h
  | marlin => cases h

end Sys2Proof
end

section
/-!
The body of QUEUE and FEED, said once as the cases of `Queued`.
-/

namespace Sys2Proof.Machine

/-- Everything the body of QUEUE and FEED can do (R145, R184, R187, R201, R216). -/
inductive Queued (op : Op) (l : Line) (s : State) : State → Prop where
  /-- The query line skips the gate. -/
  | query (hv : s.variant.isGrbl = true) (hl : l = queryLine) : Queued op l s (sendGrbl op l s)
  /-- The gate starts with a status query. -/
  | polled (hv : s.variant.isGrbl = true) (hl : l ≠ queryLine) : Queued op l s (startStatus op (.gate l) s)
  | suppressed (hu : shorten s.par l = .suppress) : Queued op l s (s.complete .suppressed)
  | trinus (u : Line) (hv : s.variant = .trinus) (hu : shorten s.par l = .send u) :
      Queued op l s (sendTrinus op { s with cur := u })
  | marlin (u : Line) (hv : s.variant = .marlin) (hu : shorten s.par l = .send u) :
      Queued op l s (sendMarlin op { s with cur := u })

theorem queueBody_cases (op : Op) (l : Line) (s : State) : Queued op l s (queueBody op l s) := by
  have grbl : s.variant.isGrbl = true → Queued op l s (queueGrbl op l s) := by
    intro hv
    unfold queueGrbl
    split
    · rename_i hl
      exact .query hv hl
    · rename_i hl
      exact .polled hv hl
  have transformed : ∀ send : State → State, (∀ u, shorten s.par l = .send u → Queued op l s (send { s with cur := u })) →
      Queued op l s (queueTransformed l send s) := by
    intro send hsend
    unfold queueTransformed
    split
    · rename_i hu
      exact .suppressed hu
    · rename_i u hu
      exact hsend u hu
  unfold queueBody
  split <;> rename_i hv
  · exact grbl (by rw [hv]; rfl)
  · exact grbl (by rw [hv]; rfl)
  · exact transformed _ fun u hu => .trinus u hv hu
  · exact transformed _ fun u hu => .marlin u hv hu

end Sys2Proof.Machine
end

section
/-!
The invariant of the machine (R14, R15, R17, R18, R22, R24 to R26, R35, R86, R151, R236). Its conjuncts fall in two parts: what
holds of the data of every state or of every open session, which each update of the state keeps, and what ties the position
inside the executing operation to the variant and to INFLIGHT, which is looked at where a phase is entered.
-/

namespace Sys2Proof.Machine

/-- The conjuncts of the invariant that hold in every phase. -/
structure State.Bounded (s : State) : Prop where
  err_code : s.errCode.toNat ≤ 4
  rx_cap : ∀ m, s.par.rxLineMax = some m → s.rxbuf.length ≤ m
  held : s.carrier ≠ [] → s.link = true ∧ s.par.rxLineMax ≠ none
  nq_cap : ∀ m, s.par.nqMax = some m → s.noticeq.length ≤ m
  novf : s.novf = true → s.par.nqMax ≠ none
  numbers : s.stValid = true → s.st.cmdbuf.toNat ≤ 999999999 ∧ s.st.rxbuf.toNat ≤ 999999999
  cur_cap : ∀ m, s.par.cmdLineMax = some m → s.cur.length ≤ m + 5

/-- What holds of the data of an open session, whatever the position. -/
structure State.Session (s : State) : Prop extends s.Bounded where
  link_up : s.link = true
  no_error : s.errCode = 0
  resend : s.resend = true → s.variant = .trinus

variable {s : State}

/-! ## From the invariant to its parts, and back -/

theorem State.Inv.bounded (h : s.Inv) : s.Bounded := { h with }

theorem State.Inv.session (h : s.Inv) (hp : s.ph.live = true) : s.Session :=
  { h.bounded with link_up := h.link_live.trans hp, no_error := h.no_error hp, resend := h.resend hp }

theorem State.Session.inv_ready (h : s.Session) (hp : s.ph = .ready) : s.Inv :=
  { h.toBounded with
    link_live := by rw [hp]; exact h.link_up
    position := fun op c hc => by simp [hp] at hc
    awaited := fun op c hc => by simp [hp] at hc
    faulted := fun hc => by simp [hp] at hc
    no_error := fun _ => h.no_error
    resend := fun _ => h.resend }

theorem State.Session.inv_busy {op : Op} {c : Ctl} (h : s.Session) (hp : s.ph = .busy op c) (hf : c.fits s.variant op = true)
    (ha : c.awaitsAck = true → s.inflight = true) : s.Inv :=
  { h.toBounded with
    link_live := by rw [hp]; exact h.link_up
    position := fun _ _ hc => by cases hp.symm.trans hc; exact hf
    awaited := fun _ _ hc => by cases hp.symm.trans hc; exact ha
    faulted := fun hc => by simp [hp] at hc
    no_error := fun _ => h.no_error
    resend := fun _ => h.resend }

theorem State.Bounded.inv_closed (h : s.Bounded) (hp : s.ph = .closed) (hl : s.link = false) : s.Inv :=
  { h with
    link_live := by rw [hp]; exact hl
    position := fun op c hc => by simp [hp] at hc
    awaited := fun op c hc => by simp [hp] at hc
    faulted := fun hc => by simp [hp] at hc
    no_error := fun hc => by simp [hp, Phase.live] at hc
    resend := fun hc => by simp [hp, Phase.live] at hc }

/-- After reset everything is empty, and the session is closed. -/
theorem resetWith_inv (p : Params) : (State.resetWith p).Inv := by
  refine State.Bounded.inv_closed ?_ rfl rfl
  constructor <;> simp [State.resetWith]

/-- Settles O49: reset leaves an empty closed state that is within every bound. -/
theorem resetMeetsTheInvariant : Obligations.ResetMeetsTheInvariant := ⟨resetWith_inv _, resetWith_inv⟩

/-! ## Updates keep the data of a session -/

theorem State.Session.writeLine (h : s.Session) (t : Line) : (s.writeLine t).Session := { h with }
theorem State.Session.logged (h : s.Session) (c : LogClass) (r : Received) : (s.logged c r).Session := { h with }
theorem State.Session.setInflight (h : s.Session) : s.setInflight.Session := { h with }
theorem State.Session.clearInflight (h : s.Session) : s.clearInflight.Session := { h with }
theorem State.Session.clearCapt (h : s.Session) : s.clearCapt.Session := { h with }
theorem State.Session.accept (h : s.Session) (op : Op) : (s.accept op).Session := { h with }

theorem State.Session.clearResend (h : s.Session) : s.clearResend.Session := { h with resend := fun hr => by cases hr }

theorem State.Session.setResend (h : s.Session) (hv : s.variant = .trinus) : s.setResend.Session :=
  { h with resend := fun _ => hv }

/-- `push` respects the capacity of NOTICEQ (R24, R25, R150). -/
theorem State.Session.push (h : s.Session) (t : Line) : (s.push t).Session := by
  rcases push_cases s t with ⟨hr, e⟩ | ⟨hr, e⟩ <;> rw [e]
  · refine { h with nq_cap := fun m hm => ?_ }
    have hlt : s.noticeq.length < m := by
      unfold State.noticeRoom at hr
      rw [show s.par.nqMax = some m from hm] at hr
      exact of_decide_eq_true hr
    rw [List.length_append]
    exact hlt
  · refine { h with novf := fun _ hm => ?_ }
    unfold State.noticeRoom at hr
    rw [show s.par.nqMax = none from hm] at hr
    cases hr

/-- A parsed report has numbers that fit (R22). -/
theorem State.Session.captured {t : Line} {rep : StatusReport} (h : s.Session) (hp : parseStatus s.variant t = some rep) :
    (s.captured t rep).Session :=
  { h with numbers := fun _ => parseStatus_fit hp }

/-- What the transform gives for an acceptable line fits in CUR (R17). -/
theorem State.Session.setCur {l u : Line} (h : s.Session) (hl : commandOk s.par l = true) (hu : shorten s.par l = .send u) :
    ({ s with cur := u } : State).Session := by
  refine { h with cur_cap := fun m hm => ?_ }
  have hlen : l.length ≤ m := by
    simp only [commandOk, lengthOk, show s.par.cmdLineMax = some m from hm, Bool.and_eq_true, decide_eq_true_eq] at hl
    exact hl.1
  have := shorten_length hu
  dsimp only
  omega

/-- Re-initialised and connected, any state is an open session (R35, R100). -/
theorem opened_session (s : State) : s.reinit.linkUp.Session := by
  constructor
  · constructor <;> simp [State.reinit, State.linkUp]
  all_goals simp [State.reinit, State.linkUp]

/-! ## Entering a phase -/

/-- The sequencer may go to any position that fits the operation and the variant. -/
theorem State.Session.goto_inv {op : Op} {c : Ctl} (h : s.Session) (hf : c.fits s.variant op = true)
    (ha : c.awaitsAck = true → s.inflight = true) : (s.goto op c).Inv :=
  State.Session.inv_busy (s := s.goto op c) { h with } rfl hf ha

/-- An operation of a session completes in READY. -/
theorem State.Session.complete_inv (h : s.Session) (hp : s.ph.afterCompletion = .ready) (c : Completion) :
    (s.complete c).Inv :=
  State.Session.inv_ready (s := s.complete c) { h with } hp

theorem errCode_ne_zero (e : ErrCode) : e.code ≠ 0 := by cases e <;> decide

theorem errCode_le_four (e : ErrCode) : e.code.toNat ≤ 4 := by cases e <;> decide

/-- A fatal error may be taken in any state (R236). -/
theorem State.Bounded.raise_inv (h : s.Bounded) (e : ErrCode) (r : Received) : (s.raise e r).Inv :=
  { h with
    err_code := errCode_le_four e
    held := fun hc => absurd rfl hc
    link_live := rfl
    position := fun _ _ hc => by cases hc
    awaited := fun _ _ hc => by cases hc
    faulted := fun _ => ⟨errCode_ne_zero e, rfl⟩
    no_error := fun hc => by cases hc
    resend := fun hc => by cases hc }

/-! ## The operations that rest at a position complete in READY -/

theorem AcqUse.fits_endPhase {v : Variant} {op : Op} {k : AcqUse} (h : k.fits v op = true) : op.endPhase = .ready := by
  cases op with
  | setvar => cases k <;> simp [AcqUse.fits, Op.sendsLine] at h
  | close => cases k <;> simp [AcqUse.fits, Op.sendsLine] at h
  | _ => rfl

theorem sendsLine_endPhase {op : Op} (h : op.sendsLine = true) : op.endPhase = .ready := by
  cases op with
  | setvar => cases h
  | close => cases h
  | _ => rfl

theorem Loop.fits_endPhase {v : Variant} {op : Op} {l : Loop} (h : l.fits v op = true) : op.endPhase = .ready := by
  cases l with
  | drain => rw [beq_iff_eq.mp h]; rfl
  | acq k => exact AcqUse.fits_endPhase h
  | ack l => exact sendsLine_endPhase (Bool.and_eq_true_iff.mp h).2
  | recvTrinus => exact sendsLine_endPhase (Bool.and_eq_true_iff.mp h).2
  | recvMarlin => exact sendsLine_endPhase (Bool.and_eq_true_iff.mp h).2

/-- SETVAR and CLOSE rest nowhere: an operation that rests at a position ends in READY (R141, R144, R151). -/
theorem Ctl.fits_endPhase {v : Variant} {op : Op} {c : Ctl} (h : c.fits v op = true) : op.endPhase = .ready := by
  cases c with
  | start => cases h
  | top l => exact Loop.fits_endPhase h
  | read l => exact Loop.fits_endPhase h
  | pgmEnd n =>
    simp only [Ctl.fits, Bool.and_eq_true] at h
    exact sendsLine_endPhase h.1.1.2
  | rdline => rw [beq_iff_eq.mp h]; rfl
  | sleepTop k => exact AcqUse.fits_endPhase (Bool.and_eq_true_iff.mp h).1
  | sleep k => exact AcqUse.fits_endPhase (Bool.and_eq_true_iff.mp h).1

/-! ## Starts of the loops -/

theorem State.Session.startStatus_inv {op : Op} {k : AcqUse} (h : s.Session) (hf : k.fits s.variant op = true) :
    (startStatus op k s).Inv :=
  (h.clearCapt.writeLine _).goto_inv hf fun ha => by cases ha

theorem State.Session.sendGrbl_inv {op : Op} (l : Line) (h : s.Session) (hv : s.variant.isGrbl = true)
    (hs : op.sendsLine = true) : (sendGrbl op l s).Inv :=
  (h.writeLine l).setInflight.goto_inv (by simp [Ctl.fits, Loop.fits, hv, hs]) fun _ => rfl

theorem State.Session.sendTrinus_inv {op : Op} (h : s.Session) (hv : s.variant = .trinus) (hs : op.sendsLine = true) :
    (sendTrinus op s).Inv :=
  (h.clearResend.writeLine _).setInflight.goto_inv (by simp [Ctl.fits, Loop.fits, hv, hs]) fun _ => rfl

theorem State.Session.sendMarlin_inv {op : Op} (h : s.Session) (hv : s.variant = .marlin) (hs : op.sendsLine = true) :
    (sendMarlin op s).Inv :=
  (h.writeLine _).setInflight.goto_inv (by simp [Ctl.fits, Loop.fits, hv, hs]) fun _ => rfl

/-- QUEUE and FEED of an acceptable line (R145, R184, R201, R216). -/
theorem State.Session.queueBody_inv {op : Op} {l : Line} (h : s.Session) (hs : op.sendsLine = true)
    (hl : commandOk s.par l = true) (hp : s.ph.afterCompletion = .ready) : (queueBody op l s).Inv := by
  generalize ht : queueBody op l s = t
  have hq : Queued op l s t := ht ▸ queueBody_cases op l s
  cases hq with
  | query hv hq => exact h.sendGrbl_inv l hv hs
  | polled hv hq => exact h.startStatus_inv (by simp [AcqUse.fits, hv, hs, hq])
  | suppressed hu => exact h.complete_inv hp _
  | trinus u hv hu => exact (h.setCur hl hu).sendTrinus_inv hv hs
  | marlin u hv hu => exact (h.setCur hl hu).sendMarlin_inv hv hs

/-! ## Received lines, time-outs, arrivals -/

/-- Whatever a received line does to the read at a position that fits keeps the invariant. -/
theorem Delivered.inv {op : Op} {raw : Line} {c : Ctl} {t : State} (hd : Delivered op raw s c t) (h : s.Session)
    (hp : s.ph = .busy op c) (hf : c.fits s.variant op = true) (ha : c.awaitsAck = true → s.inflight = true) : t.Inv := by
  have ready : s.ph.afterCompletion = .ready := by rw [hp]; exact Ctl.fits_endPhase hf
  cases hd with
  | dropped l k hk hl => exact (h.logged _ _).goto_inv hf ha
  | notice l hl =>
    refine (h.push raw).goto_inv ?_ ?_
    · rw [State.push_variant]
      exact hf
    · rw [State.push_inflight]
      exact ha
  | absorbed l rep hr => exact (h.captured hr).goto_inv hf ha
  | answered k rep hr hk => exact (h.captured hr).complete_inv ready _
  | again k rep hr hk =>
    refine (h.captured hr).goto_inv ?_ fun hx => by cases hx
    exact Bool.and_eq_true_iff.mpr ⟨hf, bne_iff_ne.mpr hk⟩
  | passed l rep hr hg =>
    have hv := Bool.and_eq_true_iff.mp (Bool.and_eq_true_iff.mp hf).1
    exact (h.captured hr).sendGrbl_inv l hv.1 hv.2
  | fatal l e he hl => exact h.raise_inv _ _
  | marked ht =>
    have hv := (Bool.and_eq_true_iff.mp hf).1
    exact (h.setResend (beq_iff_eq.mp hv)).goto_inv hf ha
  | resent ht hr =>
    have hv := Bool.and_eq_true_iff.mp hf
    exact h.sendTrinus_inv (beq_iff_eq.mp hv.1) hv.2
  | acked l ht hl => exact h.clearInflight.complete_inv ready _
  | programEnd l ht hl =>
    refine h.clearInflight.goto_inv ?_ fun hx => by cases hx
    have hv := Bool.and_eq_true_iff.mp hf
    simp [Ctl.fits, hv.1, hv.2]
  | counted n hn =>
    refine (h.logged _ _).goto_inv ?_ fun hx => by cases hx
    simp only [Ctl.fits, Bool.and_eq_true, decide_eq_true_eq] at hf ⊢
    exact ⟨⟨hf.1.1, by omega⟩, by omega⟩
  | ended n hn => exact (h.logged _ _).complete_inv ready _
  | answer c hc => exact h.complete_inv ready _

/-- A time-out of a read keeps the invariant (R105, R106). -/
theorem timedOut_inv {op : Op} {c : Ctl} (h : s.Inv) (hp : s.ph = .busy op c) (hc : c.reads = true) :
    (timedOut op c s).Inv := by
  have hs := h.session (by rw [hp]; rfl)
  have hf := h.position _ _ hp
  have ready : s.ph.afterCompletion = .ready := by rw [hp]; exact Ctl.fits_endPhase hf
  rcases timedOut_cases op s hc with ⟨_, e⟩ | ⟨l, rfl, _, e⟩ | ⟨n, rfl, hn, e⟩ | ⟨_, _, _, e⟩ | ⟨_, e⟩ <;> rw [e]
  · exact hs.complete_inv ready _
  · exact hs.goto_inv hf (h.awaited op (.read l) hp)
  · refine hs.goto_inv ?_ fun hx => by cases hx
    simp only [Ctl.fits, Bool.and_eq_true, decide_eq_true_eq] at hf ⊢
    exact ⟨⟨hf.1.1, by omega⟩, by omega⟩
  · exact hs.complete_inv ready _
  · exact hs.complete_inv ready _

/-- An arrival fills RXBUF to its capacity at most (R15, R56). -/
theorem deviceSends_inv (h : s.Inv) (d : Line) : (s.deviceSends d).Inv := by
  cases hl : s.link with
  | false =>
    rw [deviceSends_down d hl]
    exact h
  | true =>
    rw [deviceSends_carrier d hl]
    have cap : ∀ m, s.par.rxLineMax = some m → (arrive (s.carrier ++ d) { s with carrier := [] }).rxbuf.length ≤ m :=
      fun m hm => arrive_length hm (h.rx_cap m hm)
    rcases arrive_cases (s.carrier ++ d) { s with carrier := [] } with e | ⟨_, _, _, _, hm, _, e⟩ | ⟨_, _, _, _, _, _, e⟩ <;>
      rw [e] at cap ⊢
    · exact { h with rx_cap := cap, held := fun hc => absurd rfl hc }
    · exact { h with rx_cap := cap, held := fun _ => ⟨hl, hm⟩ }
    · refine State.Bounded.raise_inv ?_ _ _
      exact { h.bounded with rx_cap := cap, held := fun hc => absurd rfl hc }

/-- A cancel point at which the sequencer may go on keeps the invariant (R241). -/
theorem cancelPoint_inv {op : Op} {c c' : Ctl} (h : s.Inv) (hp : s.ph = .busy op c) (hf : c'.fits s.variant op = true)
    (ha : c'.awaitsAck = c.awaitsAck) : (cancelPoint s (s.goto op c')).Inv := by
  have hs := h.session (by rw [hp]; rfl)
  rcases cancelPoint_cases s (s.goto op c') with ⟨_, e⟩ | ⟨_, e⟩ <;> rw [e]
  · refine State.Session.inv_ready { hs with } ?_
    rw [hp]
    exact Ctl.fits_endPhase (h.position _ _ hp)
  · exact hs.goto_inv hf fun hx => h.awaited _ _ hp (ha ▸ hx)

/-! ## Accepted operations, moves, steps -/

theorem Accepted.inv {i : Instr} {t : State} (ha : Accepted s i t) (h : s.Inv) : t.Inv := by
  have session : s.ph = .ready → s.Session := fun hp => h.session (by rw [hp]; rfl)
  cases ha with
  | setvar v hi hp => exact State.Bounded.inv_closed { h.bounded with } rfl (by simpa [hp, Phase.live] using h.link_live)
  | openOp b hi hp =>
    exact (((opened_session (s.accept .openOp)).writeLine []).writeLine []).goto_inv rfl fun hx => by cases hx
  | close hi =>
    refine State.Bounded.inv_closed { h.bounded with held := fun hc => ?_ } rfl rfl
    split at hc
    · exact absurd rfl hc
    · rename_i hl
      exact absurd (h.held hc).1 hl
  | queue op l js hi ho hs hp hl =>
    have hx : ({ s with job := js } : State).Session := { session hp with }
    exact (hx.accept op).queueBody_inv hs hl (sendsLine_endPhase hs)
  | skipped l js hi hk hp => exact State.Session.inv_ready { session hp with } rfl
  | status op k ho hp hv hk =>
    refine ((session hp).accept op).startStatus_inv ?_
    rcases hk with ⟨rfl, rfl⟩ | ⟨rfl, p, rfl⟩ <;> simp [AcqUse.fits, hv]
  | npopEmpty hi hn => exact { h with }
  | npop u rest hi hn =>
    refine { h with nq_cap := fun m hm => ?_ }
    have := h.nq_cap m hm
    rw [hn, List.length_cons] at this
    dsimp only
    omega
  | topen hi hp =>
    exact (opened_session (s.accept .topen)).complete_inv rfl _
  | rdline hi hp => exact ((session hp).accept _).goto_inv rfl fun hx => by cases hx
  | wrline u hi hp hu => exact (((session hp).accept _).writeLine u).complete_inv rfl _

theorem Taken.inv {i : Instr} {t : State} (ht : Taken s i t) (h : s.Inv) : t.Inv := by
  cases ht with
  | nothing => exact h
  | rejected r js => exact { h with }
  | accepted t _ ha => exact ha.inv h

theorem Moved.inv {t : State} (hm : Moved s t) (h : s.Inv) : t.Inv := by
  cases hm with
  | waits => exact h
  | top op l hp => exact cancelPoint_inv h hp (h.position op (.top l) hp) rfl
  | sleepTop op k hp => exact cancelPoint_inv h hp (h.position op (.sleepTop k) hp) rfl
  | line op c raw rest hp hc hl =>
    have hs : ({ s with rxbuf := rest } : State).Session := by
      refine { h.session (by rw [hp]; rfl) with rx_cap := fun m hm => ?_ }
      have h1 := h.rx_cap m hm
      have h2 := congrArg List.length (splitLine_append hl)
      simp only [List.length_append] at h2
      dsimp only
      omega
    exact (deliver_cases op raw _ hc).inv (hs.logged _ _) hp (h.position _ _ hp) (h.awaited _ _ hp)
  | held op c hp hc hl hh => exact deviceSends_inv h _
  | jobEnds hb => exact { h with }
  | taken i t ps ho ht hs => exact ht.inv { h with }

/-- Settles O50, by the cases of a step. -/
theorem everyStepKeepsTheInvariant : Obligations.EveryStepKeepsTheInvariant := by
  intro s t h hst
  cases step_cases hst with
  | move t hr hu hm => exact hm.inv { h with }
  | rx d es hi => exact deviceSends_inv (s := { s with inputs := es }) { h with } d
  | timeout op c es hi hp hc hl => exact timedOut_inv (s := { s with inputs := es }) { h with } hp hc
  | poll op k es hi hp =>
    have hs : ({ s with inputs := es } : State).Session := { h.session (by rw [hp]; rfl) with }
    exact hs.startStatus_inv (Bool.and_eq_true_iff.mp (h.position _ _ hp)).1
  | idleEvent e es hi hr => exact { h with }
  | cancel es hi => exact { h with }
  | present p es hi => exact { h with }
  | reset es hi => exact { resetWith_inv s.par with }

end Sys2Proof.Machine
end

section
/-!
What the cases of a step leave unchanged, and what they can do to RXBUF, NOTICEQ, INFLIGHT and the CANCEL latch, for the
statements about every step (R11, R18, R20, R24, R49).
-/

namespace Sys2Proof.Machine

variable {s t : State}

/-! ## Time-outs, arrivals -/

/-- A time-out changes the position or completes the operation, and nothing else (R106, R235). -/
theorem timedOut_frame (op : Op) (c : Ctl) (s : State) : ∃ p r, timedOut op c s = { s with ph := p, completion := r } := by
  cases hc : c.reads with
  | true =>
    rcases timedOut_cases op s hc with ⟨_, e⟩ | ⟨_, _, _, e⟩ | ⟨_, _, _, e⟩ | ⟨_, _, _, e⟩ | ⟨_, e⟩ <;>
      exact ⟨_, _, e⟩
  | false =>
    cases c with
    | read l => cases hc
    | pgmEnd n => cases hc
    | rdline => cases hc
    | _ => exact ⟨_, _, rfl⟩

theorem deviceSends_variant (s : State) (d : Line) : (s.deviceSends d).variant = s.variant := by
  rcases deviceSends_cases s d with e | ⟨_, _, _, _, e | e⟩ <;> simp [e]

theorem deviceSends_par (s : State) (d : Line) : (s.deviceSends d).par = s.par := by
  rcases deviceSends_cases s d with e | ⟨_, _, _, _, e | e⟩ <;> simp [e]

theorem deviceSends_cancel (s : State) (d : Line) : (s.deviceSends d).cancel = s.cancel := by
  rcases deviceSends_cases s d with e | ⟨_, _, _, _, e | e⟩ <;> simp [e]

theorem deviceSends_noticeq (s : State) (d : Line) : (s.deviceSends d).noticeq = s.noticeq := by
  rcases deviceSends_cases s d with e | ⟨_, _, _, _, e | e⟩ <;> simp [e]

/-- An arrival leaves INFLIGHT, unless it overruns RXBUF (R56, R236). -/
theorem deviceSends_inflight (s : State) (d : Line) :
    (s.deviceSends d).inflight = s.inflight ∨
    (s.link = true ∧ (s.deviceSends d).inflight = false ∧ (s.deviceSends d).ph = .faulted ∧
      (s.deviceSends d).errCode = 4) := by
  rcases deviceSends_cases s d with e | ⟨hl, _, _, _, e | e⟩ <;> rw [e]
  · exact .inl rfl
  · exact .inl rfl
  · exact .inr ⟨hl, rfl, rfl, rfl⟩

/-! ## Received lines -/

section Delivered

variable {op : Op} {raw : Line} {c : Ctl}

theorem Delivered.variant (h : Delivered op raw s c t) : t.variant = s.variant := by
  cases h with
  | notice l hl => exact s.push_variant raw
  | _ => rfl

theorem Delivered.par (h : Delivered op raw s c t) : t.par = s.par := by
  cases h with
  | notice l hl => exact s.push_par raw
  | _ => rfl

theorem Delivered.cancel (h : Delivered op raw s c t) : t.cancel = s.cancel := by
  cases h with
  | notice l hl => exact s.push_cancel raw
  | _ => rfl

theorem Delivered.rxbuf (h : Delivered op raw s c t) : t.rxbuf = s.rxbuf := by
  cases h with
  | notice l hl => exact s.push_rxbuf raw
  | _ => rfl

/-- A loop may append the line it read to NOTICEQ (R150). -/
theorem Delivered.noticeq (h : Delivered op raw s c t) :
    t.noticeq = s.noticeq ∨ ∃ l, c = .read l ∧ t.noticeq = s.noticeq ++ [raw] := by
  cases h with
  | notice l hl =>
    rcases push_cases s raw with ⟨_, e⟩ | ⟨_, e⟩ <;> rw [e]
    · exact .inr ⟨l, rfl, rfl⟩
    · exact .inl rfl
  | _ => exact .inl rfl

/-- A received line sets INFLIGHT by passing the gate or by asking for a resend only (R184, R203). -/
theorem Delivered.sets_inflight (h : Delivered op raw s c t) (hs : s.inflight = false) (ht : t.inflight = true) :
    (∃ u rep, c = .read (.acq (.gate u)) ∧ t = sendGrbl op u (s.captured raw rep)) ∨ c = .read .recvTrinus := by
  have kept : t.inflight ≠ s.inflight := by simp [hs, ht]
  cases h with
  | passed u rep hp hg => exact .inl ⟨u, rep, rfl, rfl⟩
  | resent hr hx => exact .inr rfl
  | notice l hl => exact absurd (s.push_inflight raw) kept
  | fatal l e he hl => cases ht
  | acked l hr ha => cases ht
  | programEnd l hr hl => cases ht
  | _ => exact absurd rfl kept

/-- A received line clears INFLIGHT by a fatal error, or as the terminal acknowledgment `ok` of a line (R185, R186, R202,
R217). -/
theorem Delivered.clears_inflight (h : Delivered op raw s c t) (hs : s.inflight = true) (ht : t.inflight = false) :
    (t.ph = .faulted ∧ t.errCode ≠ 0) ∨
    ∃ l, c = .read l ∧ l.awaitsAck = true ∧ raw = okText ∧ (l = .recvTrinus → s.resend = false) ∧
      ((t.ph = s.ph.afterCompletion ∧ t.completion = some (.ok (.text okText)) ∧ ∀ u ∈ s.par.pgmEnd, l ≠ .ack u) ∨
        (t.ph = .busy op (.pgmEnd 4) ∧ ∃ u ∈ s.par.pgmEnd, l = .ack u)) := by
  have kept : t.inflight ≠ s.inflight := by simp [hs, ht]
  cases h with
  | fatal l e he hl => exact .inl ⟨rfl, errCode_ne_zero e⟩
  | acked l hr ha =>
    refine .inr ⟨l, rfl, ?_, hr, ?_, .inl ⟨rfl, rfl, ?_⟩⟩
    · rcases ha with ⟨m, rfl, _⟩ | ⟨rfl, _⟩ | rfl <;> rfl
    · rintro rfl
      rcases ha with ⟨m, e, _⟩ | ⟨_, e⟩ | e
      · cases e
      · exact e
      · cases e
    · rintro u hu rfl
      rcases ha with ⟨m, e, hm⟩ | ⟨e, _⟩ | e <;> cases e
      exact hm hu
  | programEnd l hr hl => exact .inr ⟨.ack l, rfl, rfl, hr, (fun e => by cases e), .inr ⟨rfl, l, hl, rfl⟩⟩
  | passed u rep hp hg => cases ht
  | resent hr hx => cases ht
  | notice l hl => exact absurd (s.push_inflight raw) kept
  | _ => exact absurd rfl kept

end Delivered

/-! ## Accepted operations -/

section Accepted

variable {op : Op} {l : Line} {i : Instr}

theorem Queued.variant (h : Queued op l s t) : t.variant = s.variant := by cases h <;> rfl
theorem Queued.par (h : Queued op l s t) : t.par = s.par := by cases h <;> rfl
theorem Queued.cancel (h : Queued op l s t) : t.cancel = s.cancel := by cases h <;> rfl
theorem Queued.rxbuf (h : Queued op l s t) : t.rxbuf = s.rxbuf := by cases h <;> rfl
theorem Queued.noticeq (h : Queued op l s t) : t.noticeq = s.noticeq := by cases h <;> rfl

/-- Sending a line puts it in flight; nothing else in the body touches INFLIGHT (R18). -/
theorem Queued.inflight (h : Queued op l s t) : t.inflight = s.inflight ∨ t.inflight = true := by
  cases h with
  | polled hv hl => exact .inl rfl
  | suppressed hu => exact .inl rfl
  | _ => exact .inr rfl

theorem Queued.completion_ne (h : Queued op l s t) (hs : s.completion = none) (r : Reason) :
    t.completion ≠ some (.rejected r) := by
  have none_ne : s.completion ≠ some (.rejected r) := by simp [hs]
  cases h with
  | suppressed hu => exact fun e => by cases e
  | _ => exact none_ne

/-- The operations that open the link (R110, R142). -/
def opensLink (i : Instr) : Prop := i = .topen ∨ ∃ b, i = .openOp b

theorem Accepted.par (h : Accepted s i t) : t.par = s.par := by
  cases h with
  | queue op l js hi ho hs hp hl => exact (queueBody_cases op l _).par
  | _ => rfl

/-- The variant is written by SETVAR only, in CLOSED (R11, R141). -/
theorem Accepted.variant (h : Accepted s i t) : t.variant = s.variant ∨ (s.ph = .closed ∧ t.ph = .closed) := by
  cases h with
  | setvar v hi hp => exact .inr ⟨hp, rfl⟩
  | queue op l js hi ho hs hp hl => exact .inl (queueBody_cases op l _).variant
  | _ => exact .inl rfl

/-- Acceptance clears the latch (R140). -/
theorem Accepted.cancel (h : Accepted s i t) : t.cancel = false := by
  cases h with
  | queue op l js hi ho hs hp hl => exact (queueBody_cases op l _).cancel
  | _ => rfl

/-- An accepted operation leaves no rejection record (R140). -/
theorem Accepted.completion_ne (h : Accepted s i t) (r : Reason) : t.completion ≠ some (.rejected r) := by
  cases h with
  | queue op l js hi ho hs hp hl =>
    exact (queueBody_cases op l (({ s with job := js } : State).accept op)).completion_ne rfl r
  | _ => exact fun e => by cases e

theorem Accepted.rxbuf (h : Accepted s i t) : t.rxbuf = s.rxbuf ∨ (t.rxbuf = [] ∧ s.ph = .closed ∧ opensLink i) := by
  cases h with
  | openOp b hi hp => exact .inr ⟨rfl, hp, .inr ⟨b, hi⟩⟩
  | topen hi hp => exact .inr ⟨rfl, hp, .inl hi⟩
  | queue op l js hi ho hs hp hl => exact .inl (queueBody_cases op l _).rxbuf
  | _ => exact .inl rfl

theorem Accepted.noticeq (h : Accepted s i t) :
    t.noticeq = s.noticeq ∨
    (∃ n, s.noticeq = n :: t.noticeq ∧ i = .npop ∧ t.completion = some (.ok (.text n))) ∨
    (t.noticeq = [] ∧ s.ph = .closed ∧ opensLink i) := by
  cases h with
  | openOp b hi hp => exact .inr (.inr ⟨rfl, hp, .inr ⟨b, hi⟩⟩)
  | topen hi hp => exact .inr (.inr ⟨rfl, hp, .inl hi⟩)
  | npop u rest hi hn => exact .inr (.inl ⟨u, hn, hi, rfl⟩)
  | queue op l js hi ho hs hp hl => exact .inl (queueBody_cases op l _).noticeq
  | _ => exact .inl rfl

/-- An accepted operation leaves INFLIGHT, clears it by opening the link, or transmits the line of a QUEUE or FEED (R18). -/
theorem Accepted.inflight (h : Accepted s i t) :
    t.inflight = s.inflight ∨ (t.inflight = false ∧ s.ph = .closed ∧ opensLink i) ∨
    ∃ op l u, t.inflight = true ∧ s.ph = .ready ∧ hostOp i = some op ∧ op.sendsLine = true ∧ commandLine i = some u ∧
      Queued op u (({ s with job := l } : State).accept op) t := by
  cases h with
  | openOp b hi hp => exact .inr (.inl ⟨rfl, hp, .inr ⟨b, hi⟩⟩)
  | topen hi hp => exact .inr (.inl ⟨rfl, hp, .inl hi⟩)
  | queue op l js hi ho hs hp hl =>
    have hq := queueBody_cases op l (({ s with job := js } : State).accept op)
    rcases hq.inflight with e | e
    · exact .inl e
    · exact .inr (.inr ⟨op, js, l, e, hp, ho, hs, hi, hq⟩)
  | _ => exact .inl rfl

end Accepted

end Sys2Proof.Machine
end

section
/-!
What every step keeps (R11, R20, R24, R49, R240): the statements about one step from any state, each by the cases of a step.
-/

namespace Sys2Proof.Machine

variable {s t : State} {i : Instr}

/-- The schedule's next entry is a reset exactly when `resetNext` says so. -/
theorem resetNext_of_inputs {es : List Input} (h : s.inputs = .reset :: es) : s.resetNext = true := by
  simp [State.resetNext, h]

/-! ## Configuration -/

theorem Taken.par (h : Taken s i t) : t.par = s.par := by
  cases h with
  | accepted t _ ha => exact ha.par
  | _ => rfl

theorem Taken.variant (h : Taken s i t) : t.variant = s.variant ∨ (s.ph = .closed ∧ t.ph = .closed) := by
  cases h with
  | accepted t _ ha => exact ha.variant
  | _ => exact .inl rfl

/-- A cancel point changes the position, the latch and the record at most (R241). -/
theorem cancelPoint_frame (s : State) (op : Op) (c : Ctl) :
    ∃ b r p, cancelPoint s (s.goto op c) = { s with cancel := b, completion := r, ph := p } := by
  rcases cancelPoint_cases s (s.goto op c) with ⟨_, e⟩ | ⟨_, e⟩ <;> exact ⟨_, _, _, e⟩

theorem Moved.par (h : Moved s t) : t.par = s.par := by
  cases h with
  | waits => rfl
  | top op l hp =>
    obtain ⟨_, _, _, e⟩ := cancelPoint_frame s op _
    rw [e]
  | sleepTop op k hp =>
    obtain ⟨_, _, _, e⟩ := cancelPoint_frame s op _
    rw [e]
  | line op c raw rest hp hc hl => exact (deliver_cases op raw _ hc).par
  | held op c hp hc hl hh => exact deviceSends_par _ _
  | jobEnds hb => rfl
  | taken i t ps ho ht hs => exact ht.par

theorem Moved.variant (h : Moved s t) : t.variant = s.variant ∨ (s.ph = .closed ∧ t.ph = .closed) := by
  cases h with
  | waits => exact .inl rfl
  | top op l hp =>
    obtain ⟨_, _, _, e⟩ := cancelPoint_frame _ op _
    exact .inl (by rw [e])
  | sleepTop op k hp =>
    obtain ⟨_, _, _, e⟩ := cancelPoint_frame _ op _
    exact .inl (by rw [e])
  | line op c raw rest hp hc hl => exact .inl (deliver_cases op raw _ hc).variant
  | held op c hp hc hl hh => exact .inl (deviceSends_variant _ _)
  | jobEnds hb => exact .inl rfl
  | taken i t ps ho ht hs => exact ht.variant

/-- Settles O55: SETVAR alone writes the variant, and nothing the parameters. -/
theorem configurationChangesOnlyInClosed : Obligations.ConfigurationChangesOnlyInClosed := by
  intro s t hst
  cases step_cases hst with
  | move t hr hu hm => exact ⟨hm.par, fun _ hne => hm.variant.resolve_left hne⟩
  | rx d es hi => exact ⟨deviceSends_par _ _, fun _ hne => absurd (deviceSends_variant _ _) hne⟩
  | timeout op c es hi hp hc hl =>
    obtain ⟨p, r, e⟩ := timedOut_frame op c { s with inputs := es }
    rw [e]
    exact ⟨rfl, fun _ hne => absurd rfl hne⟩
  | reset es hi => exact ⟨rfl, fun hr => absurd (resetNext_of_inputs hi) (by simp [hr])⟩
  | _ => exact ⟨rfl, fun _ hne => absurd rfl hne⟩

/-! ## The CANCEL latch -/

/-- A cancel point keeps a clear latch clear, and consumes a set one (R241). -/
theorem cancelPoint_cancel (op : Op) (c : Ctl) :
    (cancelPoint s (s.goto op c)).cancel = s.cancel ∨
    cancelPoint s (s.goto op c) = { s with cancel := false, completion := some .cancelled, ph := s.ph.afterCompletion } := by
  rcases cancelPoint_cases s (s.goto op c) with ⟨_, e⟩ | ⟨_, e⟩ <;> rw [e]
  · exact .inr rfl
  · exact .inl rfl

/-- A move of the sequencer leaves the latch, or clears it at a cancel point or by accepting what is offered (R20, R240). -/
theorem Moved.cancel (h : Moved s t) :
    t.cancel = s.cancel ∨
    (∃ op c, s.ph = .busy op c ∧ ((∃ l, c = .top l) ∨ ∃ k, c = .sleepTop k) ∧
      t = { s with cancel := false, completion := some .cancelled, ph := op.endPhase }) ∨
    (t.cancel = false ∧ ∃ i, s.offered = some i ∧ s.accepts i = true ∧ ∀ r, t.completion ≠ some (.rejected r)) := by
  cases h with
  | waits => exact .inl rfl
  | top op l hp =>
    refine (cancelPoint_cancel op (.read l)).imp_right fun e => .inl ⟨op, _, hp, .inl ⟨l, rfl⟩, ?_⟩
    rw [e, hp]
    rfl
  | sleepTop op k hp =>
    refine (cancelPoint_cancel op (.sleep k)).imp_right fun e => .inl ⟨op, _, hp, .inr ⟨k, rfl⟩, ?_⟩
    rw [e, hp]
    rfl
  | line op c raw rest hp hc hl => exact .inl (deliver_cases op raw _ hc).cancel
  | held op c hp hc hl hh => exact .inl (deviceSends_cancel _ _)
  | jobEnds hb => exact .inl rfl
  | taken i t ps ho ht hs =>
    cases ht with
    | accepted t hok ha => exact .inr (.inr ⟨ha.cancel, i, ho, hok, ha.completion_ne⟩)
    | _ => exact .inl rfl

/-- Settles O37, by what each move and each event does to the latch. -/
theorem cancelIsLatchedUntilConsumed : Obligations.CancelIsLatchedUntilConsumed := by
  intro s
  refine ⟨fun es hi => ?_, fun t hst h1 h2 => ?_, fun t hst hr h1 h2 => ?_⟩
  · simp only [step, hi]
    rfl
  · have kept : t.cancel ≠ s.cancel := by simp [h1, h2]
    cases step_cases hst with
    | move t hr hu hm =>
      rcases hm.cancel with e | ⟨_, _, _, _, rfl⟩ | ⟨e, _⟩
      · exact absurd e kept
      · cases h2
      · cases h2.symm.trans e
    | rx d es hi => exact absurd (deviceSends_cancel _ _) kept
    | timeout op c es hi hp hc hl =>
      obtain ⟨p, r, e⟩ := timedOut_frame op c { s with inputs := es }
      rw [e] at kept
      exact absurd rfl kept
    | cancel es hi => exact hi
    | reset es hi => cases h2
    | _ => exact absurd rfl kept
  · have kept : t.cancel ≠ s.cancel := by simp [h1, h2]
    cases step_cases hst with
    | move t _ hu hm =>
      rcases hm.cancel with e | ⟨op, c, hp, hc, rfl⟩ | ⟨_, i, ho, ha, hne⟩
      · exact absurd e kept
      · exact .inl ⟨op, c, hp, hc, rfl, endPhase_not_busy op, endPhase_ready⟩
      · exact .inr ⟨i, presented_of_offered hu ho, ha, hne⟩
    | rx d es hi => exact absurd (deviceSends_cancel _ _) kept
    | timeout op c es hi hp hc hl =>
      obtain ⟨p, r, e⟩ := timedOut_frame op c { s with inputs := es }
      rw [e] at kept
      exact absurd rfl kept
    | cancel es hi => cases h2
    | reset es hi => simp [resetNext_of_inputs hi] at hr
    | _ => exact absurd rfl kept

/-! ## RXBUF -/

/-- Bytes that arrive are appended in order, behind what was held back; the rest is held back or overruns RXBUF (R49, R56). -/
theorem deviceSends_rxbuf (s : State) (d : Line) :
    (s.deviceSends d).rxbuf = s.rxbuf ∨
    ∃ x k, s.link = true ∧ s.carrier ++ d = x ++ k ∧ (s.deviceSends d).rxbuf = s.rxbuf ++ x ∧
      ((s.deviceSends d).carrier = k ∨ ((s.deviceSends d).ph = .faulted ∧ (s.deviceSends d).errCode = 4)) := by
  rcases deviceSends_cases s d with e | ⟨hl, x, k, hx, e | e⟩ <;> rw [e]
  · exact .inl rfl
  · exact .inr ⟨x, k, hl, hx, rfl, .inl rfl⟩
  · exact .inr ⟨x, k, hl, hx, rfl, .inr ⟨rfl, rfl⟩⟩

theorem deviceSends_inputs (s : State) (d : Line) : (s.deviceSends d).inputs = s.inputs := by
  rcases deviceSends_cases s d with e | ⟨_, _, _, _, e | e⟩ <;> simp [e]

theorem Taken.rxbuf (h : Taken s i t) : t.rxbuf = s.rxbuf ∨ (t.rxbuf = [] ∧ s.ph = .closed ∧ opensLink i) := by
  cases h with
  | accepted t _ ha => exact ha.rxbuf
  | _ => exact .inl rfl

/-- Settles O57, by what each move and each event does to RXBUF. -/
theorem rxbufIsConsumedInOrder : Obligations.RxbufIsConsumedInOrder := by
  intro s t hst
  cases step_cases hst with
  | move t hr hu hm =>
    cases hm with
    | top op l hp =>
      obtain ⟨_, _, _, e⟩ := cancelPoint_frame _ op _
      exact .inl (by rw [e])
    | sleepTop op k hp =>
      obtain ⟨_, _, _, e⟩ := cancelPoint_frame _ op _
      exact .inl (by rw [e])
    | line op c raw rest hp hc hl =>
      have hd := deliver_cases op raw
        (({ s with inputs := s.inputs.tail, rxbuf := rest } : State).logged .rx (.ofRaw raw)) hc
      refine .inr (.inr (.inl ⟨op, c, raw, hp, hc, hu, ?_⟩))
      rw [hd.rxbuf]
      exact ⟨hl, splitLine_append hl⟩
    | held op c hp hc hl hh =>
      rcases deviceSends_rxbuf { s with inputs := s.inputs.tail } [] with e | ⟨x, k, hlk, hx, e, hk⟩
      · exact .inl e
      · have hn : hasLine s.variant.term.bytes s.rxbuf = false :=
          Option.isSome_eq_false_iff.mpr (Option.isNone_iff_eq_none.mpr hl)
        exact .inr (.inl ⟨[], x, k, hlk, hx, e, hk, .inr ⟨rfl, hu, hn, op, c, hp, hc⟩⟩)
    | taken i t ps ho ht hs =>
      rcases ht.rxbuf with e | ⟨e, hp, hi⟩
      · exact .inl e
      · exact .inr (.inr (.inr ⟨e, .inr ⟨hp, i, presented_of_offered hu ho, hi⟩⟩))
    | _ => exact .inl rfl
  | rx d es hi =>
    rcases deviceSends_rxbuf { s with inputs := es } d with e | ⟨x, k, hlk, hx, e, hk⟩
    · exact .inl e
    · exact .inr (.inl ⟨d, x, k, hlk, hx, e, hk, .inl (by rw [deviceSends_inputs]; exact hi)⟩)
  | timeout op c es hi hp hc hl =>
    obtain ⟨p, r, e⟩ := timedOut_frame op c { s with inputs := es }
    rw [e]
    exact .inl rfl
  | reset es hi => exact .inr (.inr (.inr ⟨rfl, .inl (resetNext_of_inputs hi)⟩))
  | _ => exact .inl rfl

/-! ## NOTICEQ -/

theorem Taken.noticeq (h : Taken s i t) :
    t.noticeq = s.noticeq ∨
    (∃ n, s.noticeq = n :: t.noticeq ∧ i = .npop ∧ t.completion = some (.ok (.text n))) ∨
    (t.noticeq = [] ∧ s.ph = .closed ∧ opensLink i) := by
  cases h with
  | accepted t _ ha => exact ha.noticeq
  | _ => exact .inl rfl

/-- Settles O58, by what each move and each event does to NOTICEQ. -/
theorem noticesAreFirstInFirstOut : Obligations.NoticesAreFirstInFirstOut := by
  intro s t hst
  cases step_cases hst with
  | move t hr hu hm =>
    cases hm with
    | top op l hp =>
      obtain ⟨_, _, _, e⟩ := cancelPoint_frame _ op _
      exact .inl (by rw [e])
    | sleepTop op k hp =>
      obtain ⟨_, _, _, e⟩ := cancelPoint_frame _ op _
      exact .inl (by rw [e])
    | line op c raw rest hp hc hl =>
      have hd := deliver_cases op raw
        (({ s with inputs := s.inputs.tail, rxbuf := rest } : State).logged .rx (.ofRaw raw)) hc
      rcases hd.noticeq with e | ⟨l, rfl, e⟩
      · exact .inl e
      · refine .inr (.inl ⟨op, l, raw, hp, ?_, e⟩)
        rw [hd.rxbuf]
        exact hl
    | held op c hp hc hl hh => exact .inl (deviceSends_noticeq _ _)
    | taken i t ps ho ht hs =>
      rcases ht.noticeq with e | ⟨n, hn, rfl, hc⟩ | ⟨e, hp, hi⟩
      · exact .inl e
      · exact .inr (.inr (.inl ⟨n, hn, presented_of_offered hu ho, hc⟩))
      · exact .inr (.inr (.inr ⟨e, .inr ⟨hp, i, presented_of_offered hu ho, hi⟩⟩))
    | _ => exact .inl rfl
  | rx d es hi => exact .inl (deviceSends_noticeq _ _)
  | timeout op c es hi hp hc hl =>
    obtain ⟨p, r, e⟩ := timedOut_frame op c { s with inputs := es }
    rw [e]
    exact .inl rfl
  | reset es hi => exact .inr (.inr (.inr ⟨rfl, .inl (resetNext_of_inputs hi)⟩))
  | _ => exact .inl rfl

end Sys2Proof.Machine
end

section
/-!
INFLIGHT (R18): which steps set it and which clear it.
-/

namespace Sys2Proof.Machine

variable {s t : State}

theorem isGrbl_term {v : Variant} (h : v.isGrbl = true) : v.term.bytes = [0x0D, 0x0A] := by
  cases v with
  | grbl09 => rfl
  | grbl11 => rfl
  | trinus => cases h
  | marlin => cases h

/-- The loops that wait for an acknowledgment run for QUEUE and FEED only (R145). -/
theorem Loop.fits_sendsLine {v : Variant} {op : Op} {l : Loop} (hf : l.fits v op = true) (ha : l.awaitsAck = true) :
    op.sendsLine = true := by
  cases l with
  | drain => cases ha
  | acq k => cases ha
  | _ => exact (Bool.and_eq_true_iff.mp hf).2

/-- In FAULTED the link is down (R14). -/
theorem State.Inv.not_faulted (h : s.Inv) (hl : s.link = true) : s.ph ≠ .faulted := by
  intro hp
  have := h.link_live
  rw [hl, hp] at this
  cases this

theorem sendGrbl_txout {op : Op} (u : Line) (h : s.variant.isGrbl = true) :
    (sendGrbl op u s).txout = s.txout ++ u ++ [0x0D, 0x0A] := by
  rw [← isGrbl_term h]
  rfl

/-- The body of QUEUE and FEED sets INFLIGHT by sending the query line as given, or a transformed line latched in CUR. -/
theorem Queued.sets_inflight {op : Op} {u : Line} (h : Queued op u s t) (hs : s.inflight = false) (ht : t.inflight = true) :
    (u = queryLine ∧ s.variant.isGrbl = true ∧ t = sendGrbl op u s) ∨
    ∃ l, t.ph = .busy op (.top l) ∧ ((l = .recvTrinus ∧ s.variant = .trinus) ∨ (l = .recvMarlin ∧ s.variant = .marlin)) ∧
      shorten s.par u = .send t.cur ∧ t.txout = s.txout ++ t.cur ++ [0x0A] := by
  cases h with
  | query hv hl => exact .inl ⟨hl, hv, rfl⟩
  | polled hv hl => cases hs.symm.trans ht
  | suppressed hu => cases hs.symm.trans ht
  | trinus w hv hw =>
    have hterm : s.term = [0x0A] := by rw [State.term, hv]; rfl
    refine .inr ⟨.recvTrinus, rfl, .inl ⟨rfl, hv⟩, hw, ?_⟩
    rw [← hterm]
    rfl
  | marlin w hv hw =>
    have hterm : s.term = [0x0A] := by rw [State.term, hv]; rfl
    refine .inr ⟨.recvMarlin, rfl, .inr ⟨rfl, hv⟩, hw, ?_⟩
    rw [← hterm]
    rfl

/-- A move sets INFLIGHT by a report that passes the gate, or by an offered QUEUE or FEED (R184, R201, R216). -/
theorem Moved.sets_inflight (h : Moved s t) (hi : s.Inv) (hs : s.inflight = false) (ht : t.inflight = true) :
    (∃ op u s₁, t = sendGrbl op u s₁ ∧ s.ph = .busy op (.read (.acq (.gate u))) ∧ s₁.variant = s.variant ∧
      s₁.txout = s.txout) ∨
    (∃ i op u s₁, Queued op u s₁ t ∧ s₁.inflight = false ∧ s.offered = some i ∧ hostOp i = some op ∧ op.sendsLine = true ∧
      commandLine i = some u ∧ s.ph = .ready ∧ s₁.variant = s.variant ∧ s₁.par = s.par ∧ s₁.txout = s.txout) := by
  have kept : t.inflight ≠ s.inflight := by simp [hs, ht]
  cases h with
  | waits => exact absurd rfl kept
  | top op l hp => obtain ⟨_, _, _, e⟩ := cancelPoint_frame s op _; exact absurd (by rw [e]) kept
  | sleepTop op k hp => obtain ⟨_, _, _, e⟩ := cancelPoint_frame s op _; exact absurd (by rw [e]) kept
  | line op c raw rest hp hc hl =>
    have hd := deliver_cases op raw (({ s with rxbuf := rest } : State).logged .rx (.ofRaw raw)) hc
    rcases hd.sets_inflight hs ht with ⟨u, rep, rfl, e⟩ | rfl
    · exact .inl ⟨op, u, _, e, hp, rfl, rfl⟩
    · cases hs.symm.trans (hi.awaited op _ hp rfl)
  | held op c hp hc hl hh =>
    rcases deviceSends_inflight s [] with e | ⟨_, e, _⟩
    · exact absurd e kept
    · cases ht.symm.trans e
  | jobEnds hb => exact absurd rfl kept
  | taken i t ps ho ht' _ =>
    cases ht' with
    | accepted t _ ha =>
      rcases ha.inflight with e | ⟨e, _⟩ | ⟨op, js, u, _, hp, hop, hsl, hc, hq⟩
      · exact absurd e kept
      · cases ht.symm.trans e
      · exact .inr ⟨i, op, u, _, hq, hs, ho, hop, hsl, hc, hp, rfl, rfl, rfl⟩
    | _ => exact absurd rfl kept

/-- A move clears INFLIGHT by the terminal acknowledgment, a fatal error, or an offered OPEN or TOPEN (R35, R185, R186,
R236). -/
theorem Moved.clears_inflight (h : Moved s t) (hs : s.inflight = true) (ht : t.inflight = false) :
    (∃ op l, s.ph = .busy op (.read l) ∧ l.awaitsAck = true ∧ splitLine s.term s.rxbuf = some (okText, t.rxbuf) ∧
      (l = .recvTrinus → s.resend = false) ∧
      ((t.ph = op.endPhase ∧ t.completion = some (.ok (.text okText)) ∧ ∀ u ∈ s.par.pgmEnd, l ≠ .ack u) ∨
        (t.ph = .busy op (.pgmEnd 4) ∧ ∃ u ∈ s.par.pgmEnd, l = .ack u))) ∨
    (t.ph = .faulted ∧ s.ph ≠ .faulted ∧ t.errCode ≠ 0) ∨
    (s.ph = .closed ∧ ∃ i, s.offered = some i ∧ opensLink i) := by
  have kept : t.inflight ≠ s.inflight := by simp [hs, ht]
  cases h with
  | waits => exact absurd rfl kept
  | top op l hp => obtain ⟨_, _, _, e⟩ := cancelPoint_frame s op _; exact absurd (by rw [e]) kept
  | sleepTop op k hp => obtain ⟨_, _, _, e⟩ := cancelPoint_frame s op _; exact absurd (by rw [e]) kept
  | line op c raw rest hp hc hl =>
    have hd := deliver_cases op raw (({ s with rxbuf := rest } : State).logged .rx (.ofRaw raw)) hc
    rcases hd.clears_inflight hs ht with ⟨h1, h2⟩ | ⟨l, rfl, ha, rfl, hr, hend⟩
    · exact .inr (.inl ⟨h1, by simp [hp], h2⟩)
    · refine .inl ⟨op, l, hp, ha, by rw [hd.rxbuf]; exact hl, hr, hend.imp_left fun h => ?_⟩
      refine ⟨h.1.trans ?_, h.2⟩
      exact congrArg Phase.afterCompletion hp
  | held op c hp hc hl hh =>
    rcases deviceSends_inflight s [] with e | ⟨_, _, h1, h2⟩
    · exact absurd e kept
    · exact .inr (.inl ⟨h1, by simp [hp], by simp [h2]⟩)
  | jobEnds hb => exact absurd rfl kept
  | taken i t ps ho ht' _ =>
    cases ht' with
    | accepted t _ ha =>
      rcases ha.inflight with e | ⟨_, hp, ho'⟩ | ⟨_, _, _, e, _⟩
      · exact absurd e kept
      · exact .inr (.inr ⟨hp, i, ho, ho'⟩)
      · cases ht.symm.trans e
    | _ => exact absurd rfl kept

/-- Settles O54: of the cases of a step only moves and an overrun touch INFLIGHT. -/
theorem inflightFollowsTheLine : Obligations.InflightFollowsTheLine := by
  intro s t hinv hst hr
  cases step_cases hst with
  | move t _ hu hm =>
    have hinv' : ({ s with inputs := s.inputs.tail } : State).Inv := { hinv with }
    constructor
    · intro hs ht
      rcases hm.sets_inflight hinv' hs ht with
        ⟨op, u, s₁, rfl, hp, hv, hx⟩ | ⟨i, op, u, s₁, hq, h0, ho, hop, hsl, hc, hp, hv, hpar, hx⟩
      · have hf := Bool.and_eq_true_iff.mp (Bool.and_eq_true_iff.mp (hinv.position op (.read (.acq (.gate u))) hp)).1
        refine ⟨op, .ack u, rfl, hf.2, hv, .inl ⟨u, rfl, hf.1, ?_, .inl hp⟩⟩
        rw [sendGrbl_txout u (hv ▸ hf.1), hx]
      · have hpres := presented_of_offered hu ho
        have hvar : t.variant = s.variant := hq.variant.trans hv
        rcases hq.sets_inflight h0 ht with ⟨hl, hg, rfl⟩ | ⟨l, hph, hl, hw, htx⟩
        · refine ⟨op, .ack u, rfl, hsl, hvar, .inl ⟨u, rfl, hv ▸ hg, ?_, .inr ⟨hl, hp, i, hpres, hop, hc⟩⟩⟩
          rw [sendGrbl_txout u hg, hx]
        · rw [hv] at hl
          rw [hpar] at hw
          rw [hx] at htx
          exact ⟨op, l, hph, hsl, hvar, .inr ⟨hl, htx, hp, i, u, hpres, hop, hc, hw⟩⟩
    · intro hs ht
      rcases hm.clears_inflight hs ht with ⟨op, l, hp, ha, hl, hres, hend⟩ | hf | ⟨hp, i, ho, hop⟩
      · have hsl := Loop.fits_sendsLine (hinv.position op (.read l) hp) ha
        rw [sendsLine_endPhase hsl] at hend
        exact .inl ⟨op, l, hp, hsl, ha, hl, hres, hend⟩
      · exact .inr (.inl hf)
      · exact .inr (.inr ⟨hp, i, presented_of_offered hu ho, hop⟩)
  | rx d es hi =>
    rcases deviceSends_inflight { s with inputs := es } d with e | ⟨hl, e, h1, h2⟩
    · exact ⟨fun hs ht => (by cases (e.trans hs).symm.trans ht), fun hs ht => (by cases (e.trans hs).symm.trans ht)⟩
    · exact ⟨fun _ ht => (by cases e.symm.trans ht), fun _ _ => .inr (.inl ⟨h1, hinv.not_faulted hl, by simp [h2]⟩)⟩
  | timeout op c es hi hp hc hl =>
    obtain ⟨p, r, e⟩ := timedOut_frame op c { s with inputs := es }
    rw [e]
    exact ⟨fun hs ht => (by cases hs.symm.trans ht), fun hs ht => (by cases hs.symm.trans ht)⟩
  | reset es hi => simp [resetNext_of_inputs hi] at hr
  | _ => exact ⟨fun hs ht => (by cases hs.symm.trans ht), fun hs ht => (by cases hs.symm.trans ht)⟩

end Sys2Proof.Machine
end

section
/-!
Two runs side by side (R16, R21, R30, R34, R248). Twin states differ at most in what TXOUT and LOG held before and in the
report registers, none of which a rule reads; every operation of the model takes twins to twins, and so does a step.
-/

namespace Sys2Proof.Machine

/-- What TXOUT and LOG of each of two runs held at first, and whether the report registers of the two agree throughout. -/
structure Start where
  same : Prop
  tx   : Line
  tx'  : Line
  lg   : List LogRec
  lg'  : List LogRec

/-- `s'` is `s` but for the outputs, to which both runs have added the same since the start, and for the report registers, which
agree at least once a report is valid. -/
def Twins (a : Start) (s s' : State) : Prop :=
  ∃ dt dl r, s.txout = a.tx ++ dt ∧ s.log = a.lg ++ dl ∧ (a.same ∨ s.stValid = true → r = s.st) ∧
    s' = { s with txout := a.tx' ++ dt, log := a.lg' ++ dl, st := r }

/-- Both outcomes are next states, and these are twins. -/
def TwinOutcomes (a : Start) (o o' : Host.Outcome State Fault Refusal) : Prop :=
  ∃ t t', o = .next t ∧ o' = .next t' ∧ Twins a t t'

namespace Twins

variable {a : Start} {s s' : State}

/-! ## Twins agree on what the rules read -/

theorem variant (h : Twins a s s') : s'.variant = s.variant := by obtain ⟨_, _, _, _, _, _, rfl⟩ := h; rfl
theorem ph (h : Twins a s s') : s'.ph = s.ph := by obtain ⟨_, _, _, _, _, _, rfl⟩ := h; rfl
theorem link (h : Twins a s s') : s'.link = s.link := by obtain ⟨_, _, _, _, _, _, rfl⟩ := h; rfl
theorem rxbuf (h : Twins a s s') : s'.rxbuf = s.rxbuf := by obtain ⟨_, _, _, _, _, _, rfl⟩ := h; rfl
theorem cur (h : Twins a s s') : s'.cur = s.cur := by obtain ⟨_, _, _, _, _, _, rfl⟩ := h; rfl
theorem resend (h : Twins a s s') : s'.resend = s.resend := by obtain ⟨_, _, _, _, _, _, rfl⟩ := h; rfl
theorem cancel (h : Twins a s s') : s'.cancel = s.cancel := by obtain ⟨_, _, _, _, _, _, rfl⟩ := h; rfl
theorem noticeq (h : Twins a s s') : s'.noticeq = s.noticeq := by obtain ⟨_, _, _, _, _, _, rfl⟩ := h; rfl
theorem port (h : Twins a s s') : s'.port = s.port := by obtain ⟨_, _, _, _, _, _, rfl⟩ := h; rfl
theorem completion (h : Twins a s s') : s'.completion = s.completion := by obtain ⟨_, _, _, _, _, _, rfl⟩ := h; rfl
theorem par (h : Twins a s s') : s'.par = s.par := by obtain ⟨_, _, _, _, _, _, rfl⟩ := h; rfl
theorem carrier (h : Twins a s s') : s'.carrier = s.carrier := by obtain ⟨_, _, _, _, _, _, rfl⟩ := h; rfl
theorem job (h : Twins a s s') : s'.job = s.job := by obtain ⟨_, _, _, _, _, _, rfl⟩ := h; rfl
theorem inputs (h : Twins a s s') : s'.inputs = s.inputs := by obtain ⟨_, _, _, _, _, _, rfl⟩ := h; rfl
theorem term (h : Twins a s s') : s'.term = s.term := by simp [State.term, h.variant]
theorem rxFull (h : Twins a s s') : s'.rxFull = s.rxFull := by simp [State.rxFull, h.par, h.rxbuf]
theorem noticeRoom (h : Twins a s s') : s'.noticeRoom = s.noticeRoom := by simp [State.noticeRoom, h.par, h.noticeq]
theorem fatalRecord (h : Twins a s s') (e : ErrCode) (r : Received) : s'.fatalRecord e r = s.fatalRecord e r := by
  simp [State.fatalRecord, h.ph, h.completion]
theorem rejection (h : Twins a s s') (op : Op) (ok : Bool) : rejection op ok s' = rejection op ok s := by
  simp [Machine.rejection, h.ph, h.variant]

/-! ## The updates of the state -/

/-- An update that leaves the outputs and the report registers alone, and makes no report valid, takes twins to twins. -/
theorem update (h : Twins a s s') (u : State → State) (hv : (u s).stValid = true → s.stValid = true)
    (hu : ∀ tx lg r, u { s with txout := tx, log := lg, st := r } = { u s with txout := tx, log := lg, st := r }) :
    Twins a (u s) (u s') := by
  obtain ⟨dt, dl, r, ht, hl, hr, rfl⟩ := h
  have hs : u s = { u s with txout := s.txout, log := s.log, st := s.st } := hu s.txout s.log s.st
  refine ⟨dt, dl, r, ?_, ?_, ?_, hu _ _ _⟩
  · rw [hs, ← ht]
  · rw [hs, ← hl]
  · rw [hs]
    exact fun hx => hr (hx.imp_right hv)

/-- Adding the same to TXOUT and LOG takes twins to twins. -/
theorem output (h : Twins a s s') (out : Line) (recs : List LogRec) :
    Twins a { s with txout := s.txout ++ out, log := s.log ++ recs }
      { s' with txout := s'.txout ++ out, log := s'.log ++ recs } := by
  obtain ⟨dt, dl, r, ht, hl, hr, rfl⟩ := h
  exact ⟨dt ++ out, dl ++ recs, r, by simp [ht], by simp [hl], hr, by simp⟩

theorem logged (h : Twins a s s') (c : LogClass) (r : Received) : Twins a (s.logged c r) (s'.logged c r) := by
  simpa [State.logged] using h.output [] [⟨c, r⟩]

theorem writeLine (h : Twins a s s') (t : Line) : Twins a (s.writeLine t) (s'.writeLine t) := by
  simpa [State.writeLine, h.term] using h.output (t ++ s.term) [⟨.tx, .line t⟩]

/-- A captured report overwrites the report registers of both. -/
theorem captured (h : Twins a s s') (t : Line) (rep : StatusReport) : Twins a (s.captured t rep) (s'.captured t rep) := by
  obtain ⟨dt, dl, r, ht, hl, hr, rfl⟩ := h
  exact ⟨dt, dl ++ [⟨.status, .line t⟩], rep, ht, by simp [hl], fun _ => rfl, by simp [State.captured]⟩

theorem goto (h : Twins a s s') (op : Op) (c : Ctl) : Twins a (s.goto op c) (s'.goto op c) :=
  h.update (·.goto op c) id fun _ _ _ => rfl

theorem complete (h : Twins a s s') (c : Completion) : Twins a (s.complete c) (s'.complete c) :=
  h.update (·.complete c) id fun _ _ _ => rfl

theorem accept (h : Twins a s s') (op : Op) : Twins a (s.accept op) (s'.accept op) :=
  h.update (·.accept op) id fun _ _ _ => rfl

theorem setInflight (h : Twins a s s') : Twins a s.setInflight s'.setInflight := h.update (·.setInflight) id fun _ _ _ => rfl

theorem clearInflight (h : Twins a s s') : Twins a s.clearInflight s'.clearInflight :=
  h.update (·.clearInflight) id fun _ _ _ => rfl

theorem reinit (h : Twins a s s') : Twins a s.reinit s'.reinit :=
  h.update (·.reinit) (fun hv => Bool.noConfusion hv) fun _ _ _ => rfl

theorem linkUp (h : Twins a s s') : Twins a s.linkUp s'.linkUp := h.update (·.linkUp) id fun _ _ _ => rfl

theorem raise (h : Twins a s s') (e : ErrCode) (r : Received) : Twins a (s.raise e r) (s'.raise e r) :=
  (h.logged .error r).update (fun u => { u with
    errCode := e.code, errText := r, inflight := false, link := false, carrier := [], completion := u.fatalRecord e r,
    ph := .faulted }) id fun _ _ _ => rfl

theorem push (h : Twins a s s') (t : Line) : Twins a (s.push t) (s'.push t) := by
  unfold State.push
  rw [h.noticeRoom]
  split
  · exact (h.logged .notice (.line t)).update (fun u => { u with noticeq := u.noticeq ++ [t] }) id fun _ _ _ => rfl
  · exact (h.logged .discarded (.line t)).update (fun u => { u with novf := true }) id fun _ _ _ => rfl

/-! ## Shared operations -/

theorem cancelPoint (h : Twins a s s') {g g' : State} (hg : Twins a g g') :
    Twins a (cancelPoint s g) (cancelPoint s' g') := by
  unfold Machine.cancelPoint
  rw [h.cancel]
  split
  · exact (h.update (·.clearCancel) id fun _ _ _ => rfl).complete _
  · exact hg

theorem arrive (h : Twins a s s') (d : Line) : Twins a (arrive d s) (arrive d s') := by
  induction d generalizing s s' with
  | nil => exact h
  | cons b bs ih =>
    have hl : hasLine s'.term s'.rxbuf = hasLine s.term s.rxbuf := by rw [h.term, h.rxbuf]
    unfold Machine.arrive
    rw [h.rxFull, hl]
    split
    · split
      · exact h.update (fun u => { u with carrier := b :: bs }) id fun _ _ _ => rfl
      · exact h.raise _ _
    · exact ih (h.update (fun u => { u with rxbuf := u.rxbuf ++ [b] }) id fun _ _ _ => rfl)

theorem deviceSends (h : Twins a s s') (d : Line) : Twins a (s.deviceSends d) (s'.deviceSends d) := by
  unfold State.deviceSends
  rw [h.link, h.carrier]
  split
  · exact Twins.arrive (h.update (fun u => { u with carrier := [] }) id fun _ _ _ => rfl) _
  · exact h

/-- An operation takes twins to twins if its body does from the accepted states. -/
theorem present (h : Twins a s s') (op : Op) (ok : Bool) {body body' : State → State}
    (hb : Twins a (body (s.accept op)) (body' (s'.accept op))) :
    Twins a (present op ok s body) (present op ok s' body') := by
  unfold Machine.present
  rw [h.ph, h.rejection]
  split
  · exact h
  · split
    · exact h.complete _
    · exact hb

/-! ## Starts of the loops, and the bodies of the operations -/

theorem startStatus (h : Twins a s s') (op : Op) (k : AcqUse) : Twins a (startStatus op k s) (startStatus op k s') :=
  ((h.update (·.clearCapt) id fun _ _ _ => rfl).writeLine _).goto _ _

theorem sendGrbl (h : Twins a s s') (op : Op) (l : Line) : Twins a (sendGrbl op l s) (sendGrbl op l s') :=
  (h.writeLine l).setInflight.goto _ _

theorem sendTrinus (h : Twins a s s') (op : Op) : Twins a (sendTrinus op s) (sendTrinus op s') := by
  unfold Machine.sendTrinus
  rw [h.cur]
  exact ((h.update (·.clearResend) id fun _ _ _ => rfl).writeLine _).setInflight.goto _ _

theorem sendMarlin (h : Twins a s s') (op : Op) : Twins a (sendMarlin op s) (sendMarlin op s') := by
  unfold Machine.sendMarlin
  rw [h.cur]
  exact (h.writeLine _).setInflight.goto _ _

theorem queueTransformed (h : Twins a s s') (l : Line) {send : State → State}
    (hs : ∀ {u u'}, Twins a u u' → Twins a (send u) (send u')) :
    Twins a (queueTransformed l send s) (queueTransformed l send s') := by
  unfold Machine.queueTransformed
  rw [h.par]
  cases shorten s.par l with
  | suppress => exact h.complete _
  | send u => exact hs (h.update (fun v => { v with cur := u }) id fun _ _ _ => rfl)

theorem queueBody (h : Twins a s s') (op : Op) (l : Line) : Twins a (queueBody op l s) (queueBody op l s') := by
  have grbl : Twins a (queueGrbl op l s) (queueGrbl op l s') := by
    unfold queueGrbl
    split
    · exact h.sendGrbl op l
    · exact h.startStatus op _
  unfold Machine.queueBody
  rw [h.variant]
  cases s.variant with
  | grbl09 => exact grbl
  | grbl11 => exact grbl
  | trinus => exact h.queueTransformed l (·.sendTrinus op)
  | marlin => exact h.queueTransformed l (·.sendMarlin op)

theorem feedBody (h : Twins a s s') (l : Line) : Twins a (feedBody l s) (feedBody l s') := by
  unfold Machine.feedBody
  split
  · exact h.complete _
  · exact h.queueBody _ _

theorem npopBody (h : Twins a s s') (p : Phase) : Twins a (npopBody p s) (npopBody p s') := by
  unfold Machine.npopBody
  rw [h.noticeq]
  cases s.noticeq with
  | nil => exact (h.complete .empty).update (fun u => { u with ph := p }) id fun _ _ _ => rfl
  | cons t rest =>
    exact h.update (fun u => { ({ u with noticeq := rest } : State).complete (.ok (.text t)) with ph := p }) id
      fun _ _ _ => rfl

/-- The body of CLOSE (R144). -/
theorem closeBody (h : Twins a s s') :
    Twins a ((if s.link then s.linkDown else s).complete (.ok .nothing))
      ((if s'.link then s'.linkDown else s').complete (.ok .nothing)) := by
  rw [h.link]
  split
  · exact (h.update (·.linkDown) id fun _ _ _ => rfl).complete _
  · exact h.complete _

/-! ## Received lines and time-outs -/

theorem acquired (h : Twins a s s') (op : Op) (k : AcqUse) (rep : StatusReport) :
    Twins a (acquired op k rep s) (acquired op k rep s') := by
  unfold Machine.acquired
  cases k with
  | status => exact h.complete _
  | waitst p =>
    dsimp only
    split
    · exact h.complete _
    · exact h.goto _ _
  | gate l =>
    dsimp only
    rw [h.variant]
    split
    · exact h.sendGrbl op l
    · exact h.goto _ _

theorem inAcq (h : Twins a s s') (op : Op) (k : AcqUse) (c : GClass) : Twins a (inAcq op k c s) (inAcq op k c s') := by
  unfold Machine.inAcq
  cases c with
  | notice t => exact (h.push t).goto _ _
  | status t =>
    dsimp only
    rw [h.variant]
    cases parseStatus s.variant t with
    | none => exact h.raise _ _
    | some rep => exact (h.captured t rep).acquired op k rep
  | ok => exact (h.logged _ _).goto _ _
  | other r => exact (h.logged _ _).goto _ _

theorem inAck (h : Twins a s s') (op : Op) (l : Line) (c : GClass) : Twins a (inAck op l c s) (inAck op l c s') := by
  unfold Machine.inAck
  cases c with
  | notice t => exact (h.push t).goto _ _
  | status t =>
    dsimp only
    rw [h.variant]
    cases parseStatus s.variant t with
    | none => exact h.raise _ _
    | some rep => exact (h.captured t rep).goto _ _
  | ok =>
    dsimp only [Machine.acked]
    rw [h.par]
    split
    · exact h.clearInflight.goto _ _
    · exact h.clearInflight.complete _
  | other r => exact h.raise _ _

theorem inTrinus (h : Twins a s s') (op : Op) (c : TClass) : Twins a (inTrinus op c s) (inTrinus op c s') := by
  unfold Machine.inTrinus
  cases c with
  | ckerr => exact (h.update (·.setResend) id fun _ _ _ => rfl).goto _ _
  | error t => exact h.raise _ _
  | info t => exact (h.push t).goto _ _
  | ok =>
    dsimp only
    rw [h.resend]
    split
    · exact h.sendTrinus op
    · exact h.clearInflight.complete _
  | other r => exact (h.logged _ _).goto _ _

theorem inMarlin (h : Twins a s s') (op : Op) (c : MClass) : Twins a (inMarlin op c s) (inMarlin op c s') := by
  unfold Machine.inMarlin
  cases c with
  | info t => exact (h.push t).goto _ _
  | ok => exact h.clearInflight.complete _
  | other r => exact (h.logged _ _).goto _ _

theorem pgmEndNext (h : Twins a s s') (op : Op) (n : Nat) : Twins a (pgmEndNext op n s) (pgmEndNext op n s') := by
  unfold Machine.pgmEndNext
  split
  · exact h.complete _
  · exact h.goto _ _

theorem inRdline (h : Twins a s s') (r : Received) : Twins a (inRdline r s) (inRdline r s') := by
  unfold Machine.inRdline
  cases r with
  | line t => exact h.complete _
  | bad => exact h.complete _

theorem deliver (h : Twins a s s') (op : Op) (c : Ctl) (raw : Line) : Twins a (deliver op c raw s) (deliver op c raw s') := by
  have arrives : Twins a (s.deviceSends (raw ++ s.term)) (s'.deviceSends (raw ++ s'.term)) := by
    rw [h.term]
    exact h.deviceSends _
  cases c with
  | read l =>
    cases l with
    | drain => exact (h.logged _ _).goto _ _
    | acq k => exact h.inAcq op k _
    | ack l => exact h.inAck op l _
    | recvTrinus => exact h.inTrinus op _
    | recvMarlin => exact h.inMarlin op _
  | pgmEnd n => exact (h.logged _ _).pgmEndNext op n
  | rdline => exact h.inRdline _
  | start => exact arrives
  | top l => exact arrives
  | sleepTop k => exact arrives
  | sleep k => exact arrives

theorem receive (h : Twins a s s') (raw : Line) : Twins a (receive raw s) (receive raw s') := by
  have arrives : Twins a (s.deviceSends (raw ++ s.term)) (s'.deviceSends (raw ++ s'.term)) := by
    rw [h.term]
    exact h.deviceSends _
  unfold Machine.receive
  rw [h.ph]
  cases s.ph with
  | busy op c => exact h.deliver op c raw
  | closed => exact arrives
  | ready => exact arrives
  | faulted => exact arrives

theorem timedOut (h : Twins a s s') (op : Op) (c : Ctl) : Twins a (timedOut op c s) (timedOut op c s') := by
  cases c with
  | read l =>
    cases l with
    | drain => exact h.complete _
    | acq k => exact h.goto _ _
    | ack l => exact h.goto _ _
    | recvTrinus => exact h.goto _ _
    | recvMarlin => exact h.goto _ _
  | pgmEnd n => exact h.pgmEndNext op n
  | rdline => exact h.complete _
  | start => exact h
  | top l => exact h
  | sleepTop k => exact h
  | sleep k => exact h

/-! ## The step -/

/-- Two next states that are twins are twin outcomes. -/
theorem outcomes {t t' : State} (h : Twins a t t') : TwinOutcomes a (.next t) (.next t') := ⟨t, t', rfl, rfl, h⟩

theorem execFeed (h : Twins a s s') (l : Line) : TwinOutcomes a (exec (.feed l) s) (exec (.feed l) s') := by
  refine outcomes ?_
  rw [h.par]
  exact h.present _ _ ((h.accept _).feedBody l)

theorem exec_host (h : Twins a s s') (r : HostOp) : TwinOutcomes a (exec r.decode s) (exec r.decode s') := by
  unfold HostOp.decode
  split
  · exact outcomes (h.present _ _ ((h.accept .setvar).update
      (fun u => { u with variant := .ofBits r.v }.complete (.ok .nothing)) id fun _ _ _ => rfl))
  · exact outcomes (h.present _ _ ((((h.accept .openOp).reinit.linkUp.writeLine []).writeLine []).goto _ _))
  · exact outcomes (h.present _ _ (h.accept .close).closeBody)
  · refine outcomes ?_
    rw [h.par]
    exact h.present _ _ ((h.accept _).queueBody _ _)
  · exact h.execFeed _
  · exact outcomes (h.present _ _ ((h.accept _).startStatus _ _))
  · exact outcomes (h.present _ _ ((h.accept _).startStatus _ _))
  · refine outcomes ?_
    rw [h.ph]
    exact h.present _ _ ((h.accept _).npopBody _)
  · exact outcomes (h.present _ _ ((h.accept .topen).reinit.linkUp.complete _))
  · exact outcomes (h.present _ _ ((h.accept .rdline).goto _ _))
  · refine outcomes ?_
    rw [h.par, h.term]
    exact h.present _ _ (((h.accept .wrline).writeLine _).complete _)
  · refine outcomes ?_
    unfold presentUnassigned
    rw [h.ph]
    split
    · exact h
    · exact h.complete _

theorem exec_port (h : Twins a s s') (p : PortOp) : TwinOutcomes a (exec p.decode s) (exec p.decode s') := by
  cases p with
  | op r => exact h.exec_host r
  | pseudo q =>
    cases q with
    | waitidle => exact outcomes (h.present _ _ ((h.accept _).startStatus _ _))
    | query => exact outcomes (h.present _ _ ((h.accept _).startStatus _ _))
    | sendjob ls =>
      cases ls with
      | nil => exact outcomes h
      | cons l rest =>
        simp only [PortOp.decode, Pseudo.decode, exec, execSendjob]
        rw [h.ph]
        split
        · exact outcomes h
        · exact Twins.execFeed (h.update (fun u => { u with job := rest }) id fun _ _ _ => rfl) l

theorem readStep (h : Twins a s s') : TwinOutcomes a (readStep s) (readStep s') := by
  have hc : splitLine s'.term s'.rxbuf = splitLine s.term s.rxbuf := by rw [h.term, h.rxbuf]
  unfold Machine.readStep
  rw [hc]
  cases splitLine s.term s.rxbuf with
  | none =>
    refine outcomes ?_
    unfold admitHeld
    rw [h.carrier]
    split
    · exact h
    · exact h.deviceSends _
  | some cut =>
    simp only [exec_classify]
    exact outcomes (((h.update (fun u => { u with rxbuf := cut.2 }) id fun _ _ _ => rfl).logged _ _).receive _)

theorem busyStep (h : Twins a s s') (op : Op) (c : Ctl) : TwinOutcomes a (busyStep op c s) (busyStep op c s') := by
  cases c with
  | top l => exact outcomes (h.cancelPoint (h.goto _ _))
  | sleepTop k => exact outcomes (h.cancelPoint (h.goto _ _))
  | read l => exact h.readStep
  | pgmEnd n => exact h.readStep
  | rdline => exact h.readStep
  | start => exact outcomes h
  | sleep k => exact outcomes h

theorem idleStep (h : Twins a s s') : TwinOutcomes a (idleStep s) (idleStep s') := by
  unfold Machine.idleStep
  rw [h.job, h.port]
  split
  · rename_i l rest _
    unfold nextOfJob
    rw [h.completion]
    split
    · exact Twins.execFeed (h.update (fun u => { u with job := rest }) id fun _ _ _ => rfl) l
    · exact outcomes (h.update (fun u => { u with job := [] }) id fun _ _ _ => rfl)
  · rename_i p ps _ _
    exact Twins.exec_port (h.update (fun u => { u with port := ps }) id fun _ _ _ => rfl) p
  · exact outcomes h

theorem sequencerMove (h : Twins a s s') : TwinOutcomes a (sequencerMove s) (sequencerMove s') := by
  unfold Machine.sequencerMove
  rw [h.ph]
  cases s.ph with
  | busy op c => exact h.busyStep op c
  | closed => exact h.idleStep
  | ready => exact h.idleStep
  | faulted => exact h.idleStep

theorem timeoutEvent (h : Twins a s s') : Twins a (timeoutEvent s) (timeoutEvent s') := by
  unfold Machine.timeoutEvent
  rw [h.ph, h.term, h.rxbuf]
  cases s.ph with
  | busy op c =>
    dsimp only
    split
    · exact h.timedOut op c
    · exact h
  | closed => exact h
  | ready => exact h
  | faulted => exact h

theorem pollEvent (h : Twins a s s') : Twins a (pollEvent s) (pollEvent s') := by
  unfold Machine.pollEvent
  rw [h.ph]
  split
  · exact h.startStatus _ _
  · exact h

/-- A step that is no reset takes twins to twins. -/
theorem step (h : Twins a s s') (hr : s.resetNext = false) : TwinOutcomes a (step s) (step s') := by
  unfold Machine.step
  rw [h.inputs]
  split
  · exact h.sequencerMove
  · rename_i e es hi
    have taken : Twins a { s with inputs := es } { s' with inputs := es } :=
      h.update (fun u => { u with inputs := es }) id fun _ _ _ => rfl
    cases e with
    | tick => exact taken.sequencerMove
    | rx d => exact outcomes (taken.deviceSends d)
    | timeout => exact outcomes taken.timeoutEvent
    | poll => exact outcomes taken.pollEvent
    | cancel => exact outcomes (taken.update (·.setCancel) id fun _ _ _ => rfl)
    | present p => exact outcomes (taken.update (fun u => { u with port := u.port ++ [p] }) id fun _ _ _ => rfl)
    | reset => simp [State.resetNext, hi] at hr

/-- Twins whose outputs were the same at first show the same once the unread report registers are hidden (R21). -/
theorem hideUnread {tx : Line} {lg : List LogRec} (h : Twins ⟨False, tx, tx, lg, lg⟩ s s') :
    s'.hideUnread = s.hideUnread := by
  obtain ⟨dt, dl, r, ht, hl, hr, rfl⟩ := h
  dsimp only
  rw [← ht, ← hl]
  unfold State.hideUnread
  dsimp only
  split
  · rename_i hv
    rw [hr (.inr hv)]
  · rfl

end Twins

/-- Settles O60: a state and its copy with other outputs are twins, and so are their successors. -/
theorem outputsAreNeverRead : Obligations.OutputsAreNeverRead := by
  intro s t tx lg hr hs
  have h : Twins ⟨True, s.txout, tx, s.log, lg⟩ s { s with txout := tx, log := lg } :=
    ⟨[], [], s.st, by simp, by simp, fun _ => rfl, by simp⟩
  obtain ⟨u, u', hu, hu', dt, dl, r, ht, hl, hst, rfl⟩ := h.step hr
  cases hs.symm.trans hu
  refine ⟨dt, dl, ht, hl, ?_⟩
  rw [hu', hst (.inl trivial)]

/-- Settles O59: two states that differ only in the unread report registers are twins. A reset overwrites the registers. -/
theorem unreadReportRegistersAreInvisible : Obligations.UnreadReportRegistersAreInvisible := by
  intro s t r hv hs
  cases hr : s.resetNext with
  | true =>
    obtain ⟨es, hi⟩ : ∃ es, s.inputs = .reset :: es := by
      cases h : s.inputs with
      | nil => simp [State.resetNext, h] at hr
      | cons e es => exact ⟨es, by simpa [State.resetNext, h] using hr⟩
    refine ⟨t, ?_, rfl⟩
    rw [← hs]
    simp only [step, hi]
    rfl
  | false =>
    have h : Twins ⟨False, s.txout, s.txout, s.log, s.log⟩ s { s with st := r } :=
      ⟨[], [], r, by simp, by simp, by simp [hv], by simp⟩
    obtain ⟨u, u', hu, hu', hw⟩ := h.step hr
    cases hs.symm.trans hu
    exact ⟨u', hu', hw.hideUnread⟩

/-- Settles O52: what a step does to TXOUT is what OutputsAreNeverRead says of it. -/
theorem transmittedBytesStay : Obligations.TransmittedBytesStay := by
  intro s t hs hr
  obtain ⟨dt, dl, ht, hl, _⟩ := outputsAreNeverRead s t s.txout s.log hr hs
  exact ⟨dt, ht.symm⟩

end Sys2Proof.Machine
end

section
/-!
Memory (20_memory.md): which steps append to TXOUT while a line awaits its acknowledgment (R48, R51), and how bytes enter RXBUF
(R44, R55, R56).
-/

namespace Sys2Proof.Machine

variable {s t : State} {op : Op} {c : Ctl}

/-! ## TXOUT -/

theorem deviceSends_txout (s : State) (d : Line) : (s.deviceSends d).txout = s.txout := by
  rcases deviceSends_cases s d with e | ⟨_, _, _, _, e | e⟩ <;> simp [e]

/-- A received line transmits by passing the gate or by asking for a resend only (R184, R203). -/
theorem Delivered.txout {raw : Line} (h : Delivered op raw s c t) :
    t.txout = s.txout ∨ (∃ u, c = .read (.acq (.gate u))) ∨
      (c = .read .recvTrinus ∧ s.resend = true ∧ t = sendTrinus op s) := by
  cases h with
  | passed u rep hp hg => exact .inr (.inl ⟨u, rfl⟩)
  | resent ht hr => exact .inr (.inr ⟨rfl, hr, rfl⟩)
  | notice l hl => exact .inl (s.push_txout raw)
  | _ => exact .inl rfl

/-- The resend of R203: the mark is cleared, `CUR` and LF are transmitted and in flight again. -/
theorem sendTrinus_resend (hv : s.variant = .trinus) :
    (sendTrinus op s).resend = false ∧ (sendTrinus op s).cur = s.cur ∧ (sendTrinus op s).inflight = true ∧
      (sendTrinus op s).txout = s.txout ++ s.cur ++ [0x0A] := by
  have hterm : s.term = [0x0A] := by rw [State.term, hv]; rfl
  rw [← hterm]
  exact ⟨rfl, rfl, rfl, rfl⟩

/-- While a line awaits its acknowledgment the sequencer transmits by the resend of a marked line only (R51, R203). -/
theorem Moved.txout_awaited (h : Moved s t) (hp : s.ph = .busy op c) (ha : c.awaitsAck = true) :
    t.txout = s.txout ∨
      (c = .read .recvTrinus ∧ s.resend = true ∧
        ∃ s₁, t = sendTrinus op s₁ ∧ s₁.variant = s.variant ∧ s₁.cur = s.cur ∧ s₁.txout = s.txout) := by
  cases h with
  | waits => exact .inl rfl
  | top op' l hp' => obtain ⟨_, _, _, e⟩ := cancelPoint_frame s op' (.read l); exact .inl (by rw [e])
  | sleepTop op' k hp' => obtain ⟨_, _, _, e⟩ := cancelPoint_frame s op' (.sleep k); exact .inl (by rw [e])
  | line op' c' raw rest hp' hc hl =>
    cases hp.symm.trans hp'
    rcases (deliver_cases op raw (({ s with rxbuf := rest } : State).logged .rx (.ofRaw raw)) hc).txout with
      e | ⟨u, rfl⟩ | ⟨rfl, hr, e⟩
    · exact .inl e
    · cases ha
    · exact .inr ⟨rfl, hr, _, e, rfl, rfl, rfl⟩
  | held op' c' hp' hc hl hh => exact .inl (deviceSends_txout s [])
  | jobEnds hb => exact .inl rfl
  | taken i t ps ho ht hs =>
    have hb := not_busy_of_offered ho
    rw [hp] at hb
    cases hb

/-- Settles O53: of the cases of a step only a move transmits while a line is awaited, and that move is the resend. -/
theorem onlyAResendTransmitsWhileALineIsAwaited : Obligations.OnlyAResendTransmitsWhileALineIsAwaited := by
  intro s t op c hinv hp ha hr hst hne
  cases step_cases hst with
  | move t _ hu hm =>
    rcases hm.txout_awaited hp ha with e | ⟨rfl, hres, s₁, rfl, hv, hcur, htx⟩
    · exact absurd e hne
    · have hvar : s.variant = .trinus := hinv.resend (by rw [hp]; rfl) hres
      obtain ⟨h1, h2, h3, h4⟩ := sendTrinus_resend (op := op) (hv.trans hvar)
      rw [hcur, htx] at h4
      exact ⟨hvar, hres, h1, h2.trans hcur, h3, h4⟩
  | rx d es hi => exact absurd (deviceSends_txout _ d) hne
  | timeout op' c' es hi hp' hc hl =>
    obtain ⟨_, _, e⟩ := timedOut_frame op' c' { s with inputs := es }
    rw [e] at hne
    exact absurd rfl hne
  | poll op' k es hi hp' =>
    cases hp.symm.trans hp'
    cases ha
  | reset es hi => simp [resetNext_of_inputs hi] at hr
  | _ => exact absurd rfl hne

/-! ## RXBUF -/

/-- An arrival event is `deviceSends` (R102). -/
theorem step_rx {d : Line} {es : List Input} (hi : s.inputs = .rx d :: es) :
    step s = .next (({ s with inputs := es } : State).deviceSends d) := by
  simp only [step, hi]
  rfl

/-- With nothing held back what the device sends arrives as it is (R102). -/
theorem deviceSends_nothing_held (d : Line) (hl : s.link = true) (hc : s.carrier = []) : s.deviceSends d = arrive d s :=
  arrive_deviceSends [] d hl hc

/-- A byte that finds RXBUF full behind a complete line is held back, with all behind it (R56). -/
theorem arrive_held {b : Byte} {d : Line} (hf : s.rxFull = true) (hl : hasLine s.term s.rxbuf = true) :
    arrive (b :: d) s = { s with carrier := b :: d } := by
  rw [arrive, if_pos hf, if_pos hl]

/-- A byte that finds RXBUF full with no complete line overruns it (R56, R234). -/
theorem arrive_overrun {b : Byte} {d : Line} (hf : s.rxFull = true) (hl : hasLine s.term s.rxbuf = false) :
    arrive (b :: d) s = s.raise .rxOverrun (.line []) := by
  rw [arrive, if_pos hf, if_neg (by simp [hl])]

/-- A byte that finds room is appended (R102). -/
theorem arrive_next {b : Byte} {d : Line} (hf : s.rxFull = false) :
    arrive (b :: d) s = arrive d { s with rxbuf := s.rxbuf ++ [b] } := by
  rw [arrive, if_neg (by simp [hf])]

/-- What arrives does not depend on the rest of the schedule (R44). -/
theorem arrive_setInputs (d : Line) (s : State) (es : List Input) :
    arrive d { s with inputs := es } = { arrive d s with inputs := es } := by
  induction d generalizing s with
  | nil => rfl
  | cons b bs ih =>
    cases hf : s.rxFull with
    | false =>
      rw [arrive_next hf, arrive_next (s := { s with inputs := es }) hf]
      exact ih { s with rxbuf := s.rxbuf ++ [b] }
    | true =>
      cases hl : hasLine s.term s.rxbuf with
      | false => rw [arrive_overrun hf hl, arrive_overrun (s := { s with inputs := es }) hf hl]; rfl
      | true => rw [arrive_held hf hl, arrive_held (s := { s with inputs := es }) hf hl]

theorem deviceSends_setInputs (s : State) (d : Line) (es : List Input) :
    ({ s with inputs := es } : State).deviceSends d = { s.deviceSends d with inputs := es } := by
  cases hl : s.link with
  | false => rw [deviceSends_down d hl, deviceSends_down (s := { s with inputs := es }) d hl]
  | true =>
    rw [deviceSends_carrier d hl, deviceSends_carrier (s := { s with inputs := es }) d hl]
    exact arrive_setInputs _ { s with carrier := [] } es

/-- Two arrival events in a row are one (R44). -/
theorem run_rx_rx {d e : Line} {es : List Input} (hi : s.inputs = .rx d :: .rx e :: es) :
    Sys2Proof.core.run 2 s = .next (({ s with inputs := es } : State).deviceSends (d ++ e)) := by
  have h1 := step_rx hi
  have h2 := step_rx ((deviceSends_inputs { s with inputs := .rx e :: es } d).trans rfl)
  rw [← deviceSends_setInputs, deviceSends_deviceSends] at h2
  simp only [Host.Core.run, core, h1, h2]

/-- A read that waits with no complete line admits what was held back (R56, R104). -/
theorem step_waiting (hp : s.ph = .busy op c) (hc : c.reads = true) (hi : s.inputs = [])
    (hl : hasLine s.term s.rxbuf = false) : step s = .next (admitHeld s) := by
  have hn : splitLine s.term s.rxbuf = none := by simpa [hasLine] using hl
  have hr : readStep s = .next (admitHeld s) := by simp only [readStep, hn]
  rw [← hr]
  simp only [step, hi, sequencerMove, hp]
  cases c with
  | start => cases hc
  | top l => cases hc
  | sleepTop k => cases hc
  | sleep k => cases hc
  | _ => rfl

/-- Settles O39: an arrival event is `deviceSends`, and so is what a waiting read does with bytes held back. -/
theorem arrivalAppendsToRxbuf : Obligations.ArrivalAppendsToRxbuf := by
  intro s d es
  refine ⟨fun hi => ⟨fun hl => ?_, fun hl hroom => ?_, fun hl => ?_, fun a b hl hc hd hroom => ?_⟩, fun e hi => ?_,
    fun op c hp hc hi hn => ⟨fun hk => ?_, fun hk => ?_⟩⟩
  · rw [step_rx hi, deviceSends_down (s := { s with inputs := es }) d hl]
  · rw [step_rx hi, deviceSends_carrier (s := { s with inputs := es }) d hl,
      arrive_room (s := { s with inputs := es, carrier := [] }) hroom]
  · rw [step_rx hi, deviceSends_carrier (s := { s with inputs := es }) d hl, step_rx rfl,
      deviceSends_carrier (s := { s with inputs := es, carrier := [] }) _ hl]
    rfl
  · subst hd
    rw [step_rx hi, step_rx rfl, deviceSends_nothing_held (s := { s with inputs := es }) _ hl hc,
      deviceSends_nothing_held (s := { s with inputs := es, rxbuf := s.rxbuf ++ a }) b hl hc]
    exact congrArg _ (arrive_append (s := { s with inputs := es }) hroom)
  · exact ⟨_, run_rx_rx hi, step_rx rfl⟩
  · rw [step_waiting hp hc hi hn]
    simp [admitHeld, hk]
  · rw [step_waiting hp hc hi hn, step_rx rfl, ← hi]
    simp [admitHeld, hk]

theorem rxFull_of_length {m : Nat} (hm : s.par.rxLineMax = some m) (hs : s.rxbuf.length = m) : s.rxFull = true := by
  simp [State.rxFull, hm, hs]

/-- Settles O40: the first byte finds RXBUF full, and the terminator in RXBUF decides. -/
theorem fullRxbufOverrunsOrHoldsBack : Obligations.FullRxbufOverrunsOrHoldsBack := by
  intro s b d m es hm hs hl hc hi
  have hf : ({ s with inputs := es } : State).rxFull = true := rxFull_of_length hm hs
  rw [step_rx hi, deviceSends_nothing_held (s := { s with inputs := es }) _ hl hc]
  exact ⟨fun hn => congrArg _ (arrive_overrun hf hn), fun hn => congrArg _ (arrive_held hf hn)⟩

end Sys2Proof.Machine
end

section
/-!
The rows of the receive tables and the lines on the wire (R64, R66, R67, R71 to R75).
-/

namespace Sys2Proof

/-! ## UTF-8 sequences -/

/-- The byte lies in the range. -/
def ByteRange.has (r : ByteRange) (b : Byte) : Prop := r.1 ≤ b.toNat ∧ b.toNat ≤ r.2

/-- The scan takes one byte of each range asked for, and then a text (R66). -/
theorem utf8Scan_iff (need : List ByteRange) (s : Line) :
    utf8Scan need s = true ↔ ∃ q r, s = q ++ r ∧ List.Forall₂ ByteRange.has need q ∧ isText r = true := by
  induction need generalizing s with
  | nil =>
    refine ⟨fun h => ⟨[], s, rfl, .nil, h⟩, ?_⟩
    rintro ⟨q, r, rfl, hq, hr⟩
    cases hq
    exact hr
  | cons a need ih =>
    cases s with
    | nil =>
      simp only [utf8Scan, Bool.false_eq_true, false_iff]
      rintro ⟨q, r, hs, hq, _⟩
      cases hq
      cases hs
    | cons b bs =>
      simp only [utf8Scan, Bool.and_eq_true, decide_eq_true_eq, ih]
      constructor
      · rintro ⟨hb, q, r, rfl, hq, hr⟩
        exact ⟨b :: q, r, rfl, .cons hb hq, hr⟩
      · rintro ⟨_, r, hs, hq, hr⟩
        cases hq with
        | cons hb hq =>
          cases hs
          exact ⟨hb, _, r, rfl, hq, hr⟩

/-- The rows of R66's table are what `utf8Follow` asks for behind a first byte. -/
theorem utf8Sequence_iff (q : Line) :
    Utf8Sequence q ↔ ∃ b need bs, q = b :: bs ∧ utf8Follow b = some need ∧ List.Forall₂ ByteRange.has need bs := by
  constructor
  · rintro (⟨a, rfl, ha⟩ | ⟨a, b, rfl, ha, hb⟩ | ⟨a, b, c, rfl, hc, hab⟩ | ⟨a, b, c, d, rfl, hc, hd, hab⟩)
    · exact ⟨a, [], [], rfl, by simp only [utf8Follow]; split_ifs; rfl, .nil⟩
    · refine ⟨a, [contRange], [b], rfl, ?_, .cons hb .nil⟩
      simp only [utf8Follow]
      grind
    · rcases hab with ⟨ha, hb⟩ | ⟨ha, hb⟩ | ⟨ha, hb⟩
      · refine ⟨a, [(0xA0, 0xBF), contRange], [b, c], rfl, ?_, .cons hb (.cons hc .nil)⟩
        simp [utf8Follow, ha]
      · refine ⟨a, [contRange, contRange], [b, c], rfl, ?_, .cons hb (.cons hc .nil)⟩
        simp only [utf8Follow]
        grind
      · refine ⟨a, [(0x80, 0x9F), contRange], [b, c], rfl, ?_, .cons hb (.cons hc .nil)⟩
        simp [utf8Follow, ha]
    · rcases hab with ⟨ha, hb⟩ | ⟨ha, hb⟩ | ⟨ha, hb⟩
      · refine ⟨a, [(0x90, 0xBF), contRange, contRange], [b, c, d], rfl, ?_, .cons hb (.cons hc (.cons hd .nil))⟩
        simp [utf8Follow, ha]
      · refine ⟨a, [contRange, contRange, contRange], [b, c, d], rfl, ?_, .cons hb (.cons hc (.cons hd .nil))⟩
        simp only [utf8Follow]
        grind
      · refine ⟨a, [(0x80, 0x8F), contRange, contRange], [b, c, d], rfl, ?_, .cons hb (.cons hc (.cons hd .nil))⟩
        simp [utf8Follow, ha]
  · rintro ⟨a, need, bs, rfl, hf, hq⟩
    simp only [utf8Follow] at hf
    split_ifs at hf <;> cases hf
    · cases hq
      exact .inl ⟨a, rfl, by omega⟩
    · obtain _ | ⟨hb, _ | _⟩ := hq
      exact .inr (.inl ⟨a, _, rfl, by omega, hb⟩)
    · obtain _ | ⟨hb, _ | ⟨hc, _ | _⟩⟩ := hq
      exact .inr (.inr (.inl ⟨a, _, _, rfl, hc, .inl ⟨by omega, hb⟩⟩))
    · obtain _ | ⟨hb, _ | ⟨hc, _ | _⟩⟩ := hq
      exact .inr (.inr (.inl ⟨a, _, _, rfl, hc, .inr (.inr ⟨by omega, hb⟩)⟩))
    · obtain _ | ⟨hb, _ | ⟨hc, _ | _⟩⟩ := hq
      exact .inr (.inr (.inl ⟨a, _, _, rfl, hc, .inr (.inl ⟨by omega, hb⟩)⟩))
    · obtain _ | ⟨hb, _ | ⟨hc, _ | ⟨hd, _ | _⟩⟩⟩ := hq
      exact .inr (.inr (.inr ⟨a, _, _, _, rfl, hc, hd, .inl ⟨by omega, hb⟩⟩))
    · obtain _ | ⟨hb, _ | ⟨hc, _ | ⟨hd, _ | _⟩⟩⟩ := hq
      exact .inr (.inr (.inr ⟨a, _, _, _, rfl, hc, hd, .inr (.inl ⟨by omega, hb⟩)⟩))
    · obtain _ | ⟨hb, _ | ⟨hc, _ | ⟨hd, _ | _⟩⟩⟩ := hq
      exact .inr (.inr (.inr ⟨a, _, _, _, rfl, hc, hd, .inr (.inr ⟨by omega, hb⟩)⟩))

/-- A text that is not empty is a well-formed sequence and a text (R66). -/
theorem isText_cons_iff (b : Byte) (bs : Line) :
    isText (b :: bs) = true ↔ ∃ q r, b :: bs = q ++ r ∧ Utf8Sequence q ∧ isText r = true := by
  have scan : isText (b :: bs) = true ↔ ∃ need, utf8Follow b = some need ∧ utf8Scan need bs = true := by
    rw [isText, utf8Scan]
    cases utf8Follow b <;> simp
  simp only [scan, utf8Sequence_iff]
  constructor
  · rintro ⟨need, hf, hs⟩
    obtain ⟨q, r, rfl, hq, hr⟩ := (utf8Scan_iff need bs).mp hs
    exact ⟨b :: q, r, rfl, ⟨b, need, q, rfl, hf, hq⟩, hr⟩
  · rintro ⟨_, r, hs, ⟨b', need, q, rfl, hf, hq⟩, hr⟩
    cases hs
    exact ⟨need, hf, (utf8Scan_iff need _).mpr ⟨q, r, rfl, hq, hr⟩⟩

/-- A sequence of R66's table has a first byte. -/
theorem Utf8Sequence.length_pos {q : Line} (h : Utf8Sequence q) : 0 < q.length := by
  obtain ⟨_, _, _, rfl, _⟩ := (utf8Sequence_iff q).mp h
  simp

/-- The texts are the concatenations of well-formed sequences (R66). -/
theorem isText_iff (t : Line) : isText t = true ↔ ∃ qs : List Line, t = qs.flatten ∧ ∀ q ∈ qs, Utf8Sequence q := by
  constructor
  · intro h
    induction hn : t.length using Nat.strong_induction_on generalizing t with
    | _ n ih =>
      cases t with
      | nil => exact ⟨[], rfl, by simp⟩
      | cons b bs =>
        obtain ⟨q, r, hs, hq, hr⟩ := (isText_cons_iff b bs).mp h
        have hlen := congrArg List.length hs
        rw [List.length_append] at hlen
        have hpos := hq.length_pos
        obtain ⟨qs, rfl, hqs⟩ := ih r.length (by omega) r hr rfl
        exact ⟨q :: qs, by simpa using hs, by simpa using ⟨hq, hqs⟩⟩
  · rintro ⟨qs, rfl, hqs⟩
    induction qs with
    | nil => rfl
    | cons q qs ih =>
      obtain ⟨hq, hrest⟩ := List.forall_mem_cons.mp hqs
      obtain ⟨b, need, bs, rfl, _⟩ := (utf8Sequence_iff q).mp hq
      exact (isText_cons_iff b _).mpr ⟨b :: bs, qs.flatten, rfl, hq, ih hrest⟩

end Sys2Proof
end

section
/-!
Received lines and their classes (R64, R71 to R75, R87): the instruction of a class, its bytes, and the condition of each row of the
three tables.
-/

namespace Sys2Proof

variable {v : Variant} {raw : Line}

/-! ## The instruction of a class -/

/-- The row of the opcode table of a Grbl class (R73). -/
def GClass.instr (raw : Line) : GClass → Instr
  | .notice _ => .gNotice raw
  | .status _ => .gStatus raw
  | .ok => .gOk
  | .other _ => .gOther raw

/-- The row of the opcode table of a Trinus class (R74). -/
def TClass.instr (raw : Line) : TClass → Instr
  | .ckerr => .tCkerr
  | .error _ => .tError raw
  | .info _ => .tInfo raw
  | .ok => .tOk
  | .other _ => .tOther raw

/-- The row of the opcode table of a Marlin class (R75). -/
def MClass.instr (raw : Line) : MClass → Instr
  | .info _ => .mInfo raw
  | .ok => .mOk
  | .other _ => .mOther raw

theorem isGrbl_iff : v.isGrbl = true ↔ v = .grbl09 ∨ v = .grbl11 := by
  cases v <;> decide

theorem classify_grbl (hv : v.isGrbl = true) (raw : Line) : classify v raw = (grblClass (.ofRaw raw)).instr raw := by
  rcases isGrbl_iff.mp hv with rfl | rfl <;> simp only [classify] <;> cases grblClass (.ofRaw raw) <;> rfl

theorem classify_trinus (raw : Line) : classify .trinus raw = (trinusClass (.ofRaw raw)).instr raw := by
  simp only [classify]
  cases trinusClass (.ofRaw raw) <;> rfl

theorem classify_marlin (raw : Line) : classify .marlin raw = (marlinClass (.ofRaw raw)).instr raw := by
  simp only [classify]
  cases marlinClass (.ofRaw raw) <;> rfl

theorem noTerm_iff : noTerm v raw = true ↔ hasLine v.term.bytes raw = false := by simp [noTerm]

/-- The class of a line without a terminator is well-formed, and its bytes are the line's with the terminator (R64, R87). -/
theorem classify_wf_encode (h : hasLine v.term.bytes raw = false) :
    (classify v raw).wf v = true ∧ encode v (classify v raw) = encodeRx v raw := by
  have hn := noTerm_iff.mpr h
  have grbl : v.isGrbl = true → (classify v raw).wf v = true ∧ encode v (classify v raw) = encodeRx v raw := by
    intro hv
    have hr := grblClass_received (.ofRaw raw)
    rw [classify_grbl hv]
    cases hc : grblClass (.ofRaw raw) with
    | ok => rw [hc] at hr; exact ⟨hv, congrArg (encodeRx v) (ofRaw_eq_line hr.symm)⟩
    | _ =>
      refine ⟨?_, rfl⟩
      simp [GClass.instr, Instr.wf, isGrblRaw, hv, hn, hc, GClass.isNotice, GClass.isStatus, GClass.isOther]
  cases v with
  | grbl09 => exact grbl rfl
  | grbl11 => exact grbl rfl
  | trinus =>
    have hr := trinusClass_received (.ofRaw raw)
    rw [classify_trinus]
    cases hc : trinusClass (.ofRaw raw) with
    | ok => rw [hc] at hr; exact ⟨rfl, congrArg (encodeRx _) (ofRaw_eq_line hr.symm)⟩
    | ckerr => rw [hc] at hr; exact ⟨rfl, congrArg (encodeRx _) (ofRaw_eq_line hr.symm)⟩
    | _ => exact ⟨by simp [TClass.instr, Instr.wf, isTrinusRaw, hn, hc, TClass.isError, TClass.isInfo, TClass.isOther], rfl⟩
  | marlin =>
    have hr := marlinClass_received (.ofRaw raw)
    rw [classify_marlin]
    cases hc : marlinClass (.ofRaw raw) with
    | ok => rw [hc] at hr; exact ⟨rfl, congrArg (encodeRx _) (ofRaw_eq_line hr.symm)⟩
    | _ => exact ⟨by simp [MClass.instr, Instr.wf, isMarlinRaw, hn, hc, MClass.isInfo, MClass.isOther], rfl⟩

/-- The bytes that decode as a received line are the framed lines, each to the class of its line (R71). -/
theorem decode_rxline_iff {b : Line} {i : Instr} : decode (.rxline v b) = .ok i ↔
    ∃ raw, hasLine v.term.bytes raw = false ∧ b = raw ++ v.term.bytes ∧ i = classify v raw := by
  have hd : decode (.rxline v b) = .ok i ↔ ∃ raw, cutLine v b = .ok raw ∧ i = classify v raw := by
    simp only [decode, decodeRx]
    cases cutLine v b <;> simp [eq_comm]
  rw [hd]
  simp only [cutLine_iff, and_assoc]

/-- A framed line decodes to the class of the line. -/
theorem decode_rxline_framed (h : hasLine v.term.bytes raw = false) :
    decode (.rxline v (raw ++ v.term.bytes)) = .ok (classify v raw) :=
  decode_rxline_iff.mpr ⟨raw, h, rfl, rfl⟩

/-- The instruction of a class decodes from its own bytes (R87). -/
theorem decode_encode_classify (h : hasLine v.term.bytes raw = false) :
    decode (encode v (classify v raw)) = .ok (classify v raw) := by
  rw [(classify_wf_encode h).2]
  exact decode_rxline_framed h

/-! ## The condition of each row -/

theorem okText_eq : okText = [0x6F, 0x6B] := by decide

theorem ofRaw_text (h : isText raw = true) : Received.ofRaw raw = .line raw := by simp [Received.ofRaw, h]

theorem ofRaw_bad (h : isText raw = false) : Received.ofRaw raw = .bad := by simp [Received.ofRaw, h]

theorem delimited_head {a z : Byte} (h : delimited a z raw = true) : raw.head? = some a := by
  obtain ⟨m, rfl⟩ := (delimited_iff a z raw).mp h
  rfl

/-- Two strings of which neither begins the other do not begin the same string. -/
theorem not_isPrefix_of_isPrefix {p q : Line} (hpq : isPrefix p q = false) (hqp : isPrefix q p = false)
    (h : isPrefix p raw = true) : isPrefix q raw = false := by
  refine Bool.eq_false_iff.mpr fun hq => ?_
  rw [isPrefix_iff] at h hq
  rcases List.prefix_or_prefix_of_prefix h hq with hc | hc <;> rw [← isPrefix_iff] at hc
  · exact absurd hc (by simp [hpq])
  · exact absurd hc (by simp [hqp])

/-- The rows of R73 with the tests that decide them; no two of the three tests pass together. -/
theorem classify_grbl_cases (hv : v.isGrbl = true) (raw : Line) :
    (isText raw = false ∧ raw ≠ okText ∧ classify v raw = .gOther raw) ∨
    (isText raw = true ∧ isNotice raw = true ∧ isStatusShaped raw = false ∧ raw ≠ okText ∧
      classify v raw = .gNotice raw) ∨
    (isText raw = true ∧ isNotice raw = false ∧ isStatusShaped raw = true ∧ raw ≠ okText ∧
      classify v raw = .gStatus raw) ∨
    (raw = okText ∧ classify v raw = .gOk) ∨
    (isText raw = true ∧ isNotice raw = false ∧ isStatusShaped raw = false ∧ raw ≠ okText ∧
      classify v raw = .gOther raw) := by
  rw [classify_grbl hv]
  cases ht : isText raw with
  | false =>
    have hne : raw ≠ okText := by rintro rfl; exact absurd ht (by decide)
    exact .inl ⟨rfl, hne, by rw [ofRaw_bad ht]; rfl⟩
  | true =>
    have hok : raw.head? = some 0x5B ∨ raw.head? = some 0x3C → raw ≠ okText := by
      rintro h rfl
      revert h
      decide
    rw [ofRaw_text ht, grblClass]
    cases hn : isNotice raw with
    | true =>
      have hs : isStatusShaped raw = false := Bool.eq_false_iff.mpr fun hs => by
        have := (delimited_head hn).symm.trans (delimited_head hs)
        exact absurd this (by decide)
      exact .inr (.inl ⟨rfl, rfl, hs, hok (.inl (delimited_head hn)), rfl⟩)
    | false =>
      cases hs : isStatusShaped raw with
      | true => exact .inr (.inr (.inl ⟨rfl, rfl, rfl, hok (.inr (delimited_head hs)), rfl⟩))
      | false =>
        by_cases ho : raw = okText
        · exact .inr (.inr (.inr (.inl ⟨ho, by simp [ho, GClass.instr]⟩)))
        · exact .inr (.inr (.inr (.inr ⟨rfl, rfl, rfl, ho, by simp [ho, GClass.instr]⟩)))

/-- The informational prefixes of R74. -/
def isTrinusInfo (t : Line) : Bool := isPrefix echoPrefix t || isPrefix valuePrefix t

/-- The rows of R74 with the tests that decide them; the prefixes exclude each other. -/
theorem classify_trinus_cases (raw : Line) :
    (isText raw = false ∧ raw ≠ ckerrText ∧ raw ≠ okText ∧ classify .trinus raw = .tOther raw) ∨
    (raw = ckerrText ∧ classify .trinus raw = .tCkerr) ∨
    (isText raw = true ∧ raw ≠ ckerrText ∧ isPrefix errorPrefix raw = true ∧ isTrinusInfo raw = false ∧ raw ≠ okText ∧
      classify .trinus raw = .tError raw) ∨
    (isText raw = true ∧ raw ≠ ckerrText ∧ isPrefix errorPrefix raw = false ∧ isTrinusInfo raw = true ∧ raw ≠ okText ∧
      classify .trinus raw = .tInfo raw) ∨
    (raw = okText ∧ classify .trinus raw = .tOk) ∨
    (isText raw = true ∧ raw ≠ ckerrText ∧ isPrefix errorPrefix raw = false ∧ isTrinusInfo raw = false ∧ raw ≠ okText ∧
      classify .trinus raw = .tOther raw) := by
  rw [classify_trinus]
  cases ht : isText raw with
  | false =>
    have hck : raw ≠ ckerrText := by rintro rfl; exact absurd ht (by decide)
    have hok : raw ≠ okText := by rintro rfl; exact absurd ht (by decide)
    exact .inl ⟨rfl, hck, hok, by rw [ofRaw_bad ht]; rfl⟩
  | true =>
    rw [ofRaw_text ht, trinusClass]
    by_cases hck : raw = ckerrText
    · exact .inr (.inl ⟨hck, by simp [hck, TClass.instr]⟩)
    · cases he : isPrefix errorPrefix raw with
      | true =>
        have hi : isTrinusInfo raw = false := by
          rw [isTrinusInfo, not_isPrefix_of_isPrefix (by decide) (by decide) he,
            not_isPrefix_of_isPrefix (by decide) (by decide) he]
          rfl
        have hok : raw ≠ okText := by rintro rfl; exact absurd he (by decide)
        exact .inr (.inr (.inl ⟨rfl, hck, rfl, hi, hok, by simp [hck, TClass.instr]⟩))
      | false =>
        rw [← isTrinusInfo]
        cases hi : isTrinusInfo raw with
        | true =>
          have hok : raw ≠ okText := by rintro rfl; exact absurd hi (by decide)
          exact .inr (.inr (.inr (.inl ⟨rfl, hck, rfl, rfl, hok, by simp [hck, TClass.instr]⟩)))
        | false =>
          by_cases hok : raw = okText
          · exact .inr (.inr (.inr (.inr (.inl ⟨hok, by rw [hok]; decide⟩))))
          · exact .inr (.inr (.inr (.inr (.inr ⟨rfl, hck, rfl, rfl, hok, by simp [hck, hok, TClass.instr]⟩))))

/-- The rows of R75 with the tests that decide them. -/
theorem classify_marlin_cases (raw : Line) :
    (isText raw = false ∧ raw ≠ okText ∧ classify .marlin raw = .mOther raw) ∨
    (isText raw = true ∧ isPrefix marlinEchoPrefix raw = true ∧ raw ≠ okText ∧ classify .marlin raw = .mInfo raw) ∨
    (raw = okText ∧ classify .marlin raw = .mOk) ∨
    (isText raw = true ∧ isPrefix marlinEchoPrefix raw = false ∧ raw ≠ okText ∧ classify .marlin raw = .mOther raw) := by
  rw [classify_marlin]
  cases ht : isText raw with
  | false =>
    have hok : raw ≠ okText := by rintro rfl; exact absurd ht (by decide)
    exact .inl ⟨rfl, hok, by rw [ofRaw_bad ht]; rfl⟩
  | true =>
    rw [ofRaw_text ht, marlinClass]
    cases hi : isPrefix marlinEchoPrefix raw with
    | true =>
      have hok : raw ≠ okText := by rintro rfl; exact absurd hi (by decide)
      exact .inr (.inl ⟨rfl, rfl, hok, rfl⟩)
    | false =>
      by_cases hok : raw = okText
      · exact .inr (.inr (.inl ⟨hok, by simp [hok, MClass.instr]⟩))
      · exact .inr (.inr (.inr ⟨rfl, rfl, hok, by simp [hok, MClass.instr]⟩))

/-! ## The conditions as the rules write them -/

theorem exists_eq_append_iff (p t : Line) : (∃ m, t = p ++ m) ↔ isPrefix p t = true := by
  rw [isPrefix_iff]
  exact exists_congr fun _ => eq_comm

theorem forall_ne_append_iff (p t : Line) : (∀ m, t ≠ p ++ m) ↔ isPrefix p t = false := by
  rw [← Bool.not_eq_true, ← exists_eq_append_iff, not_exists]

theorem isNotice_iff (t : Line) : isNotice t = true ↔ ∃ m, t = [0x5B] ++ m ++ [0x5D] := delimited_iff _ _ t

theorem isStatusShaped_iff (t : Line) : isStatusShaped t = true ↔ ∃ m, t = [0x3C] ++ m ++ [0x3E] := delimited_iff _ _ t

theorem isNotice_eq_false_iff (t : Line) : isNotice t = false ↔ ∀ m, t ≠ [0x5B] ++ m ++ [0x5D] := by
  rw [← Bool.not_eq_true, isNotice_iff, not_exists]

theorem isStatusShaped_eq_false_iff (t : Line) : isStatusShaped t = false ↔ ∀ m, t ≠ [0x3C] ++ m ++ [0x3E] := by
  rw [← Bool.not_eq_true, isStatusShaped_iff, not_exists]

/-- The condition of each row of R73, in the order of its tests. -/
theorem classify_grbl_rows (hv : v.isGrbl = true) (raw : Line) :
    (classify v raw = .gNotice raw ↔ isText raw = true ∧ ∃ m, raw = [0x5B] ++ m ++ [0x5D]) ∧
    (classify v raw = .gStatus raw ↔ isText raw = true ∧ ∃ m, raw = [0x3C] ++ m ++ [0x3E]) ∧
    (classify v raw = .gOk ↔ raw = [0x6F, 0x6B]) ∧
    (classify v raw = .gOther raw ↔ isText raw = false ∨
      ((∀ m, raw ≠ [0x5B] ++ m ++ [0x5D]) ∧ (∀ m, raw ≠ [0x3C] ++ m ++ [0x3E]) ∧ raw ≠ [0x6F, 0x6B])) := by
  simp only [← isNotice_iff, ← isStatusShaped_iff, ← isNotice_eq_false_iff, ← isStatusShaped_eq_false_iff,
    ← okText_eq]
  rcases classify_grbl_cases hv raw with ⟨ht, ho, e⟩ | ⟨ht, hn, hs, ho, e⟩ | ⟨ht, hn, hs, ho, e⟩ | ⟨rfl, e⟩ |
    ⟨ht, hn, hs, ho, e⟩
  · simp [e, ht, ho]
  · simp [e, ht, hn, hs, ho]
  · simp [e, ht, hn, hs, ho]
  · rw [e]
    decide
  · simp [e, ht, hn, hs, ho]

/-- The condition of each row of R74, in the order of its tests. -/
theorem classify_trinus_rows (raw : Line) :
    (classify .trinus raw = .tCkerr ↔ raw = ckerrText) ∧
    (classify .trinus raw = .tError raw ↔ isText raw = true ∧ raw ≠ ckerrText ∧ ∃ m, raw = errorPrefix ++ m) ∧
    (classify .trinus raw = .tInfo raw ↔ isText raw = true ∧ ∃ m, raw = echoPrefix ++ m ∨ raw = valuePrefix ++ m) ∧
    (classify .trinus raw = .tOk ↔ raw = [0x6F, 0x6B]) ∧
    (classify .trinus raw = .tOther raw ↔ isText raw = false ∨
      ((∀ m, raw ≠ errorPrefix ++ m ∧ raw ≠ echoPrefix ++ m ∧ raw ≠ valuePrefix ++ m) ∧ raw ≠ [0x6F, 0x6B])) := by
  have info : (isPrefix echoPrefix raw = true ∨ isPrefix valuePrefix raw = true) ↔ isTrinusInfo raw = true := by
    simp [isTrinusInfo]
  have not_info : (isPrefix echoPrefix raw = false ∧ isPrefix valuePrefix raw = false) ↔ isTrinusInfo raw = false := by
    simp [isTrinusInfo]
  simp only [exists_or, exists_eq_append_iff, forall_and, forall_ne_append_iff, info, not_info, ← okText_eq]
  rcases classify_trinus_cases raw with ⟨ht, hc, ho, e⟩ | ⟨rfl, e⟩ | ⟨ht, hc, he, hi, ho, e⟩ | ⟨ht, hc, he, hi, ho, e⟩ |
    ⟨rfl, e⟩ | ⟨ht, hc, he, hi, ho, e⟩
  · simp [e, ht, hc, ho]
  · rw [e]
    decide
  · simp [e, ht, hc, he, hi, ho]
  · simp [e, ht, hc, he, hi, ho]
  · rw [e]
    decide
  · simp [e, ht, hc, he, hi, ho]

/-- The condition of each row of R75, in the order of its tests. -/
theorem classify_marlin_rows (raw : Line) :
    (classify .marlin raw = .mInfo raw ↔ isText raw = true ∧ ∃ m, raw = marlinEchoPrefix ++ m) ∧
    (classify .marlin raw = .mOk ↔ raw = [0x6F, 0x6B]) ∧
    (classify .marlin raw = .mOther raw ↔ isText raw = false ∨ ((∀ m, raw ≠ marlinEchoPrefix ++ m) ∧ raw ≠ [0x6F, 0x6B])) := by
  simp only [exists_eq_append_iff, forall_ne_append_iff, ← okText_eq]
  rcases classify_marlin_cases raw with ⟨ht, ho, e⟩ | ⟨ht, hi, ho, e⟩ | ⟨rfl, e⟩ | ⟨ht, hi, ho, e⟩
  · simp [e, ht, ho]
  · simp [e, ht, hi, ho]
  · rw [e]
    decide
  · simp [e, ht, hi, ho]

/-- Settles O5, by the rows of the three tables. -/
theorem receivedLineDecodingIsFaithful : Obligations.ReceivedLineDecodingIsFaithful := by
  refine ⟨isText_iff, fun v => ⟨fun b i hd => ?_, fun b => ⟨?_, ?_⟩, ?_⟩⟩
  · obtain ⟨raw, hn, rfl, rfl⟩ := decode_rxline_iff.mp hd
    exact classify_wf_encode hn
  · rintro ⟨i, hd⟩
    obtain ⟨raw, hn, hb, _⟩ := decode_rxline_iff.mp hd
    exact ⟨raw, hn, hb⟩
  · rintro ⟨raw, hn, rfl⟩
    exact ⟨_, decode_rxline_framed hn⟩
  · rintro raw d hn rfl
    rw [decode_rxline_framed hn]
    simp only [Except.ok.injEq]
    refine ⟨fun hv => classify_grbl_rows (isGrbl_iff.mpr hv) raw, ?_, ?_⟩
    · rintro rfl
      exact classify_trinus_rows raw
    · rintro rfl
      exact classify_marlin_rows raw

end Sys2Proof
end

section
/-!
Transmitted lines (R64, R67, R87, R123): which payloads are checksummed, and that the bytes of a line tell its kind.
-/

namespace Sys2Proof

/-! ## The canonical decimal -/

/-- Digits without a leading zero are the decimal rendering of their value (R69, R70). -/
theorem dec_num {d : Line} (hd : d.all isDigit = true) (hne : d ≠ []) (hz : 1 < d.length → d.head? ≠ some 0x30) :
    dec (num d) = d := by
  induction d using List.reverseRecOn with
  | nil => exact absurd rfl hne
  | append_singleton ds b ih =>
    simp only [List.all_append, List.all_cons, List.all_nil, Bool.and_true, Bool.and_eq_true] at hd
    obtain ⟨hds, hb⟩ := hd
    have hb' : 0x30 ≤ b.toNat ∧ b.toNat ≤ 0x39 := by simpa [isDigit] using hb
    have digit_eq : ∀ k, digit (10 * k + (b.toNat - 0x30)) = b := fun k => by
      apply BitVec.eq_of_toNat_eq
      rw [digit_toNat]
      omega
    rw [num_concat]
    cases ds with
    | nil =>
      rw [dec_of_lt (by simp [num]; omega), digit_eq]
      rfl
    | cons x xs =>
      have hx : x ≠ 0x30 := fun h => hz (by simp) (by simp [h])
      have hxs : dec (num (x :: xs)) = x :: xs := ih hds (by simp) fun _ => by simpa using hx
      have hpos : 1 ≤ num (x :: xs) := by
        refine Nat.one_le_iff_ne_zero.mpr fun h0 => ?_
        have := congrArg List.head? hxs
        rw [h0] at this
        exact hx (Option.some.inj this).symm
      rw [dec_of_ge (by omega), digit_eq, show (10 * num (x :: xs) + (b.toNat - 0x30)) / 10 = num (x :: xs) by omega, hxs]

/-! ## The checksum suffix -/

/-- What is cut at the last star is the string. -/
theorem splitLastStar_eq {u before d : Line} (h : splitLastStar u = some (before, d)) : u = before ++ 0x2A :: d := by
  induction u generalizing before d with
  | nil => cases h
  | cons b bs ih =>
    rw [splitLastStar] at h
    split at h
    · rename_i r hr
      cases h
      rw [List.cons_append, ← ih hr]
    · split_ifs at h with hb
      cases h
      rw [hb]
      rfl

/-- The suffix of a checksummed text is cut off again (R87). -/
theorem unsuffix_ckAppend (t : Line) : unsuffix (ckAppend t) = t := by
  rw [unsuffix, ckAppend_eq, splitLastStar_append _ (star_not_mem_dec _)]
  exact List.dropLast_concat

/-- A string verifies exactly when it is the checksummed form of what stands before its suffix (R123). -/
theorem ckVerify_iff (u : Line) : ckVerify u = true ↔ u = ckAppend (unsuffix u) := by
  refine ⟨fun h => ?_, fun h => h ▸ ckVerify_ckAppend _⟩
  unfold ckVerify at h
  split at h
  · cases h
  · rename_i before d hs
    simp only [isCkDigits, Bool.and_eq_true, decide_eq_true_eq, beq_iff_eq, Bool.not_eq_true', Bool.and_eq_false_imp,
      beq_eq_false_iff_ne, ne_eq] at h
    obtain ⟨⟨⟨⟨⟨hlen, _⟩, hdig⟩, hzero⟩, hlast⟩, hnum⟩ := h
    obtain ⟨t, rfl⟩ : ∃ t, before = t ++ [0x20] :=
      ⟨_, (List.dropLast_append_getLast? _ hlast).symm⟩
    have hu : unsuffix u = t := by simp [unsuffix, hs]
    have hck : (CK t).toNat = num d := by
      rw [hnum]
      simp [xorAll, CK]
    rw [hu, ckAppend_eq, hck, dec_num hdig (List.ne_nil_of_length_pos hlen) hzero]
    exact splitLastStar_eq hs

/-- The texts a CHECKSUMMED line is made of (R67, R125, R126, R129, R130). -/
theorem isChecksummable_iff (t : Line) :
    isChecksummable t = true ↔ strip t = t ∧ (0x2A : Byte) ∉ t ∧ ¬ [0x4D, 0x31, 0x31, 0x37] <+: t := by
  simp only [isChecksummable, Bool.and_eq_true, beq_iff_eq, Bool.not_eq_true', ← Bool.not_eq_true, isPrefix_iff,
    List.contains_iff_mem, m117Prefix_eq, and_assoc]

/-! ## The kind of a payload -/

variable {v : Variant} {p : Line}

/-- On TRINUS and MARLIN the checksummed form of a checksummable text is CHECKSUMMED (R67). -/
theorem payloadKind_ckAppend {t : Line} (hv : v.isGrbl = false) (ht : isChecksummable t = true) :
    payloadKind v (ckAppend t) = .txChecksummed t := by
  simp [payloadKind, hv, ckVerify_ckAppend, unsuffix_ckAppend, ht]

/-- Any other payload is RAW (R67). -/
theorem payloadKind_raw (h : ¬ ∃ t, v.isGrbl = false ∧ isChecksummable t = true ∧ p = ckAppend t) :
    payloadKind v p = .txRaw p := by
  refine if_neg fun hc => h ?_
  simp only [Bool.and_eq_true, Bool.not_eq_true'] at hc
  obtain ⟨⟨hv, hck⟩, ht⟩ := hc
  exact ⟨_, hv, ht, (ckVerify_iff p).mp hck⟩

/-- The kind of a payload without a terminator is well-formed, and its bytes are the payload's with the terminator (R64). -/
theorem payloadKind_wf_encode (h : hasLine v.term.bytes p = false) :
    (payloadKind v p).wf v = true ∧ encode v (payloadKind v p) = .txline v (p ++ v.term.bytes) := by
  by_cases hc : ∃ t, v.isGrbl = false ∧ isChecksummable t = true ∧ p = ckAppend t
  · obtain ⟨t, hv, ht, rfl⟩ := hc
    have hn : hasLine v.term.bytes t = false := Bool.eq_false_iff.mpr fun hl => by
      rw [ckAppend, List.append_assoc, hasLine_append _ hl] at h
      cases h
    rw [payloadKind_ckAppend hv ht]
    exact ⟨by simp [Instr.wf, hv, ht, noTerm_iff.mpr hn], rfl⟩
  · rw [payloadKind_raw hc]
    exact ⟨noTerm_iff.mpr h, rfl⟩

/-- The bytes that decode as a transmitted line are the framed payloads, each to its kind (R64). -/
theorem decode_txline_iff {b : Line} {i : Instr} : decode (.txline v b) = .ok i ↔
    ∃ p, hasLine v.term.bytes p = false ∧ b = p ++ v.term.bytes ∧ i = payloadKind v p := by
  have hd : decode (.txline v b) = .ok i ↔ ∃ p, cutLine v b = .ok p ∧ i = payloadKind v p := by
    simp only [decode, decodeTx]
    cases cutLine v b <;> simp [eq_comm]
  rw [hd]
  simp only [cutLine_iff, and_assoc]

/-- A framed payload decodes to its kind. -/
theorem decode_txline_framed (h : hasLine v.term.bytes p = false) :
    decode (.txline v (p ++ v.term.bytes)) = .ok (payloadKind v p) :=
  decode_txline_iff.mpr ⟨p, h, rfl, rfl⟩

theorem isGrbl_eq_false_iff : v.isGrbl = false ↔ v = .trinus ∨ v = .marlin := by
  cases v <;> decide

/-- Settles O6, by the two cases of `payloadKind`. -/
theorem transmittedLineDecodingKeepsTheBytes : Obligations.TransmittedLineDecodingKeepsTheBytes := by
  refine fun v => ⟨fun b i hd => ?_, fun b => ⟨?_, ?_⟩, fun p hp => ⟨fun t hv he h1 h2 h3 => ?_, fun hraw => ?_⟩⟩
  · obtain ⟨p, hn, rfl, rfl⟩ := decode_txline_iff.mp hd
    exact payloadKind_wf_encode hn
  · rintro ⟨i, hd⟩
    obtain ⟨p, hn, hb, _⟩ := decode_txline_iff.mp hd
    exact ⟨p, hn, hb⟩
  · rintro ⟨p, hn, rfl⟩
    exact ⟨_, decode_txline_framed hn⟩
  · change p = ckAppend t at he
    subst he
    rw [decode_txline_framed hp, payloadKind_ckAppend (isGrbl_eq_false_iff.mpr hv)
      ((isChecksummable_iff t).mpr ⟨h1, h2, h3⟩)]
  · rw [decode_txline_framed hp, payloadKind_raw]
    rintro ⟨t, hv, ht, he⟩
    obtain ⟨h1, h2, h3⟩ := (isChecksummable_iff t).mp ht
    rcases hraw with rfl | rfl | hraw
    · cases hv
    · cases hv
    · rcases hraw t he with h | h | h
      · exact h h1
      · exact h2 h
      · exact h3 h

end Sys2Proof
end

section
/-!
The encoder and the decoder agree (R60 to R64, R67, R71, R73 to R75, R87, R230).
-/

namespace Sys2Proof

variable {v : Variant}

/-! ## Host operations, completions and errors -/

/-- An unassigned code decodes to itself (R82). -/
theorem decode_unassigned {c : Byte} (h : isUnassigned c = true) : decode (.hostop [c]) = .ok (.unassigned c) := by
  have hc : c.toNat = 0 ∨ 0x0C ≤ c.toNat := by simpa [isUnassigned] using h
  have bare : HostOp.ofBytes [c] = .ok (HostOp.bare c) := by
    unfold HostOp.ofBytes
    dsimp only
    split <;> first | omega | rfl
  have instr : (HostOp.bare c).decode = .unassigned c := by
    unfold HostOp.decode
    dsimp only [HostOp.bare]
    split <;> first | omega | rfl
  simp only [decode, decodeBytes, bare, instr]

/-- The argument of GATE11 is read back from its digits (R61, R69, R70; log 9). -/
theorem waitstOperand_gate11 (n : Nat) : waitstOperand 0x01 (dec n) = .ok { HostOp.bare 0x07 with p := 1, n := n } := by
  have hne : dec n ≠ [] := fun h => by
    have := dec_getLast? n
    simp [h] at this
  simp [waitstOperand, hne, dec_all_isDigit, num_dec]

theorem decode_waitst (p : Pred) : decode (encode v (.waitst p)) = .ok (.waitst p) := by
  cases p with
  | gate11 n =>
    have hb : HostOp.ofBytes (0x07 :: 0x01 :: dec n) = waitstOperand 0x01 (dec n) := rfl
    simp only [encode, Pred.bytes, decode, decodeBytes, hb, waitstOperand_gate11]
    rfl
  | _ => rfl

/-- The FEEDs of a job decode to its lines (R63). -/
theorem feedLines_map (ls : List Line) : feedLines (ls.map (0x05 :: ·)) = some ls := by
  induction ls with
  | nil => rfl
  | cons l ls ih =>
    rw [List.map_cons, feedLines, if_pos rfl, ih]
    rfl

/-- A job is none of the other two pseudo-operations, for its operations are FEEDs (R63). -/
theorem decode_sendjob (ls : List Line) : decode (encode v (.sendjob ls)) = .ok (.sendjob ls) := by
  have h1 : ls.map (0x05 :: ·) ≠ [[0x07, 0x02]] := by cases ls <;> simp
  have h2 : ls.map (0x05 :: ·) ≠ [[0x06]] := by cases ls <;> simp
  rw [encode, decode, decodePseudo, if_neg h1, if_neg h2, feedLines_map]

/-- The code of a fatal error names it (R230). -/
theorem decode_cplFatal (e : ErrCode) (t : Received) : decode (encode v (.cplFatal e t)) = .ok (.cplFatal e t) := by
  cases e <;> rfl

/-! ## Lines on the wire -/

variable {raw : Line} {i : Instr}

/-- A row of R73 is the class of its line. -/
theorem classify_of_isGrblRaw {p : GClass → Bool} (h : isGrblRaw v raw p = true) (hp : ∀ c, p c = true → c.instr raw = i) :
    hasLine v.term.bytes raw = false ∧ classify v raw = i := by
  simp only [isGrblRaw, Bool.and_eq_true] at h
  obtain ⟨⟨hv, hn⟩, hc⟩ := h
  exact ⟨noTerm_iff.mp hn, (classify_grbl hv raw).trans (hp _ hc)⟩

/-- A row of R74 is the class of its line. -/
theorem classify_of_isTrinusRaw {p : TClass → Bool} (h : isTrinusRaw v raw p = true)
    (hp : ∀ c, p c = true → c.instr raw = i) :
    hasLine v.term.bytes raw = false ∧ classify v raw = i := by
  simp only [isTrinusRaw, Bool.and_eq_true, beq_iff_eq] at h
  obtain ⟨⟨rfl, hn⟩, hc⟩ := h
  exact ⟨noTerm_iff.mp hn, (classify_trinus raw).trans (hp _ hc)⟩

/-- A row of R75 is the class of its line. -/
theorem classify_of_isMarlinRaw {p : MClass → Bool} (h : isMarlinRaw v raw p = true)
    (hp : ∀ c, p c = true → c.instr raw = i) :
    hasLine v.term.bytes raw = false ∧ classify v raw = i := by
  simp only [isMarlinRaw, Bool.and_eq_true, beq_iff_eq] at h
  obtain ⟨⟨rfl, hn⟩, hc⟩ := h
  exact ⟨noTerm_iff.mp hn, (classify_marlin raw).trans (hp _ hc)⟩

/-- An instruction that is the class of a line without a terminator decodes from its own bytes. -/
theorem decode_encode_of_classify (h : hasLine v.term.bytes raw = false ∧ classify v raw = i) :
    decode (encode v i) = .ok i := by
  obtain ⟨hn, rfl⟩ := h
  exact decode_encode_classify hn

/-- The Grbl classes that a row's condition names have that row (R73). -/
theorem GClass.instr_of_row (raw : Line) (c : GClass) :
    (c.isNotice = true → c.instr raw = .gNotice raw) ∧ (c.isStatus = true → c.instr raw = .gStatus raw) ∧
    (c.isOther = true → c.instr raw = .gOther raw) := by
  cases c <;> simp [GClass.instr, GClass.isNotice, GClass.isStatus, GClass.isOther]

/-- The Trinus classes that a row's condition names have that row (R74). -/
theorem TClass.instr_of_row (raw : Line) (c : TClass) :
    (c.isError = true → c.instr raw = .tError raw) ∧ (c.isInfo = true → c.instr raw = .tInfo raw) ∧
    (c.isOther = true → c.instr raw = .tOther raw) := by
  cases c <;> simp [TClass.instr, TClass.isError, TClass.isInfo, TClass.isOther]

/-- The Marlin classes that a row's condition names have that row (R75). -/
theorem MClass.instr_of_row (raw : Line) (c : MClass) :
    (c.isInfo = true → c.instr raw = .mInfo raw) ∧ (c.isOther = true → c.instr raw = .mOther raw) := by
  cases c <;> simp [MClass.instr, MClass.isInfo, MClass.isOther]

/-- The exact texts of R73 to R75 hold no terminator, and have the rows of their own. -/
theorem okText_noTerm (v : Variant) : hasLine v.term.bytes okText = false := by cases v <;> decide

theorem classify_okText_grbl (hv : v.isGrbl = true) : classify v okText = .gOk := by
  obtain ⟨_, _, hok, _⟩ := classify_grbl_rows hv okText
  exact hok.mpr okText_eq

theorem classify_okText_trinus : classify .trinus okText = .tOk := by decide

theorem classify_ckerrText : classify .trinus ckerrText = .tCkerr := by decide

theorem classify_okText_marlin : classify .marlin okText = .mOk := by decide

/-- A line holds the terminator LF exactly when it holds the byte (R12, R103). -/
theorem hasLine_lf_iff (l : Line) : hasLine [0x0A] l = true ↔ (0x0A : Byte) ∈ l := by
  induction l with
  | nil => simp [hasLine, splitLine]
  | cons b bs ih =>
    have hp : isPrefix [0x0A] (b :: bs) = true ↔ 0x0A = b := by simp [isPrefix_iff]
    unfold hasLine at ih ⊢
    rw [splitLine, List.mem_cons, ← hp, ← ih]
    split_ifs with h
    · exact iff_of_true rfl (.inl h)
    · rw [Option.isSome_map]
      exact ⟨.inr, fun hm => hm.resolve_left h⟩

/-- The suffix brings no terminator into a line of TRINUS or MARLIN (R67, R122). -/
theorem hasLine_ckAppend {t : Line} (hv : v.isGrbl = false) (h : hasLine v.term.bytes t = false) :
    hasLine v.term.bytes (ckAppend t) = false := by
  have ht : v.term.bytes = [0x0A] := by rcases isGrbl_eq_false_iff.mp hv with rfl | rfl <;> rfl
  rw [ht, ← Bool.not_eq_true, hasLine_lf_iff] at h ⊢
  have hd : (0x0A : Byte) ∉ dec (CK t).toNat := fun hm => absurd (List.all_eq_true.mp (dec_all_isDigit _) _ hm) (by decide)
  simpa [ckAppend] using ⟨h, hd⟩

theorem decode_txChecksummed {t : Line} (h : (Instr.txChecksummed t).wf v = true) :
    decode (encode v (.txChecksummed t)) = .ok (.txChecksummed t) := by
  simp only [Instr.wf, Bool.and_eq_true, Bool.not_eq_true'] at h
  obtain ⟨⟨hv, hn⟩, ht⟩ := h
  rw [encode, decode_txline_framed (hasLine_ckAppend hv (noTerm_iff.mp hn)), payloadKind_ckAppend hv ht]

/-- Settles O4, row by row: a row of a receive table is the class of its line. -/
theorem decodeOfEncodeIsTheInstruction : Obligations.DecodeOfEncodeIsTheInstruction := by
  intro v i hwf hraw
  cases i with
  | txRaw p => exact absurd rfl (hraw p)
  | setvar w => cases w <;> rfl
  | openOp b => cases b <;> rfl
  | waitst p => exact decode_waitst p
  | unassigned c => exact decode_unassigned hwf
  | sendjob ls => exact decode_sendjob ls
  | txChecksummed t => exact decode_txChecksummed hwf
  | gNotice raw => exact decode_encode_of_classify (classify_of_isGrblRaw hwf fun c => (GClass.instr_of_row raw c).1)
  | gStatus raw => exact decode_encode_of_classify (classify_of_isGrblRaw hwf fun c => (GClass.instr_of_row raw c).2.1)
  | gOk => exact decode_encode_of_classify ⟨okText_noTerm v, classify_okText_grbl hwf⟩
  | gOther raw => exact decode_encode_of_classify (classify_of_isGrblRaw hwf fun c => (GClass.instr_of_row raw c).2.2)
  | tCkerr =>
    obtain rfl : v = .trinus := beq_iff_eq.mp hwf
    exact decode_encode_of_classify ⟨by decide, classify_ckerrText⟩
  | tError raw => exact decode_encode_of_classify (classify_of_isTrinusRaw hwf fun c => (TClass.instr_of_row raw c).1)
  | tInfo raw => exact decode_encode_of_classify (classify_of_isTrinusRaw hwf fun c => (TClass.instr_of_row raw c).2.1)
  | tOk =>
    obtain rfl : v = .trinus := beq_iff_eq.mp hwf
    exact decode_encode_of_classify ⟨okText_noTerm _, classify_okText_trinus⟩
  | tOther raw => exact decode_encode_of_classify (classify_of_isTrinusRaw hwf fun c => (TClass.instr_of_row raw c).2.2)
  | mInfo raw => exact decode_encode_of_classify (classify_of_isMarlinRaw hwf fun c => (MClass.instr_of_row raw c).1)
  | mOk =>
    obtain rfl : v = .marlin := beq_iff_eq.mp hwf
    exact decode_encode_of_classify ⟨okText_noTerm _, classify_okText_marlin⟩
  | mOther raw => exact decode_encode_of_classify (classify_of_isMarlinRaw hwf fun c => (MClass.instr_of_row raw c).2)
  | cplOk p => cases p <;> rfl
  | cplFatal e t => exact decode_cplFatal e t
  | _ => rfl

end Sys2Proof
end

section
/-!
What a step runs and what its rows do (R62, R63, R67, R71, R73 to R75, R82, R83, R108, R140, R250): the line that is read, the
refusals, a job, the transmitted lines, and the tables of the four receive loops.
-/

namespace Sys2Proof.Machine

variable {s : State} {op : Op} {c : Ctl} {l raw : Line}

/-! ## The step -/

/-- Settles O51: a move of the sequencer answers, and an event of the environment is a function of the state. -/
theorem everyStepAnswers : Obligations.EveryStepAnswers := by
  intro s
  have moves : ∀ s, ∃ t, sequencerMove s = .next t := fun s => by
    obtain ⟨t, h, _⟩ := sequencerMove_moved s
    exact ⟨t, h⟩
  unfold step
  split
  · exact moves s
  · rename_i e es _
    cases e with
    | tick => exact moves _
    | _ => exact ⟨_, rfl⟩

/-- With an empty schedule the step is the sequencer's move (R7; log 4). -/
theorem step_moves (hi : s.inputs = []) : step s = sequencerMove s := by
  simp only [step, hi]

/-- While a read waits the sequencer's move is the read (R104). -/
theorem sequencerMove_reads (hp : s.ph = .busy op c) (hc : c.reads = true) : sequencerMove s = readStep s := by
  simp only [sequencerMove, hp]
  cases c with
  | start => cases hc
  | top l => cases hc
  | sleepTop k => cases hc
  | sleep k => cases hc
  | _ => rfl

/-- Settles O2: the step is the read, which takes the line. -/
theorem stepRunsTheClassOfTheLineRead : Obligations.StepRunsTheClassOfTheLineRead := by
  intro s op c raw rest hp hc hi hl
  have hr : splitLine s.term s.rxbuf = some (raw, rest) := hl
  rw [step_moves hi, sequencerMove_reads hp hc]
  simp only [readStep, hr]
  rfl

/-! ## Words written out -/

/-- Settles O3, by running the decoder on each word. -/
theorem writtenWordsDecode : Obligations.WrittenWordsDecode :=
  ⟨rfl, rfl, rfl, rfl, by decide, by decide, by decide, by decide, rfl, rfl⟩

/-- Settles O47, by running the grammars on each line. -/
theorem workedStatusLinesParseAndListedOnesFail : Obligations.WorkedStatusLinesParseAndListedOnesFail := by
  refine ⟨?_, ?_, ?_, ?_, ?_, ?_, ?_, ?_, ?_, ?_, ?_, ?_, ?_, ?_, ?_, ?_, ?_, ?_, ?_, ?_⟩ <;> decide

/-! ## Refusals -/

/-- Settles O7: the code decodes to itself and is refused (R82). -/
theorem unassignedCodesAreRejected : Obligations.UnassignedCodesAreRejected := by
  intro code s hc hb
  refine ⟨decode_unassigned hc, ?_⟩
  simp only [exec, execUnassigned, presentUnassigned, hb, complete_idle _ hb]
  rfl

/-- A failed check leaves its record and changes nothing else (R83, R140). -/
theorem present_rejected {ok : Bool} {r : Reason} (body : State → State) (hb : s.ph.isBusy = false)
    (hr : rejection op ok s = some r) : present op ok s body = { s with completion := some (.rejected r) } := by
  simp only [present, hb, hr, complete_idle _ hb]
  rfl

/-- An instruction that is one host operation presents it (R140). -/
theorem exec_presents {i : Instr} (s : State) (ho : hostOp i = some op) (hj : ∀ ls, i ≠ .sendjob ls) :
    ∃ ok body, exec i s = .next (present op ok s body) := by
  cases i with
  | sendjob ls => exact absurd rfl (hj ls)
  | setvar | openOp | close | queue | feed | status | waitst | npop | topen | rdline | wrline | waitidle | query =>
    cases ho
    exact ⟨_, _, rfl⟩
  | _ => cases ho

/-- The phase is checked first (R140). -/
theorem exec_badPhase {i : Instr} (ho : hostOp i = some op) (hj : ∀ ls, i ≠ .sendjob ls) (hb : s.ph.isBusy = false)
    (ha : op.admits s.ph = false) : exec i s = .next { s with completion := some (.rejected .badPhase) } := by
  obtain ⟨ok, body, h⟩ := exec_presents s ho hj
  rw [h, present_rejected (r := .badPhase) body hb (by simp [rejection, ha])]

/-- The variant is checked next (R140). -/
theorem exec_badVariant {i : Instr} (ho : hostOp i = some op) (hj : ∀ ls, i ≠ .sendjob ls) (hb : s.ph.isBusy = false)
    (ha : op.admits s.ph = true) (hv : op.variantOk s.variant = false) :
    exec i s = .next { s with completion := some (.rejected .badVariant) } := by
  obtain ⟨ok, body, h⟩ := exec_presents s ho hj
  rw [h, present_rejected (r := .badVariant) body hb (by simp [rejection, ha, hv])]

/-- Settles O8: the table of R140, row by row. -/
theorem wrongPhaseOrVariantIsRejected : Obligations.WrongPhaseOrVariantIsRejected := by
  intro s
  refine ⟨fun hp i hi => ?_, fun hp i hi => ?_, fun hp hv i hi => ?_⟩
  · have hb : s.ph.isBusy = false := by rcases hp with hp | hp <;> rw [hp] <;> rfl
    have hn : s.ph ≠ .closed := by rcases hp with hp | hp <;> rw [hp] <;> simp
    have outside : ∀ op : Op, op = .setvar ∨ op = .openOp ∨ op = .topen → op.admits s.ph = false := fun op ho =>
      Bool.eq_false_iff.mpr fun ha => hn (admits_closed ha ho)
    rcases hi with rfl | ⟨v, rfl⟩ | ⟨b, rfl⟩
    all_goals exact exec_badPhase rfl (by simp) hb (outside _ (by simp))
  · have hb : s.ph.isBusy = false := by rcases hp with hp | hp <;> rw [hp] <;> rfl
    have hn : s.ph ≠ .ready := by rcases hp with hp | hp <;> rw [hp] <;> simp
    have outside : ∀ op : Op, op = .queue ∨ op = .feed ∨ op = .status ∨ op = .waitst ∨ op = .rdline ∨ op = .wrline →
        op.admits s.ph = false := fun op ho => Bool.eq_false_iff.mpr fun ha => hn (admits_ready ha ho)
    rcases hi with rfl | rfl | rfl | rfl | ⟨p, rfl⟩ | ⟨l, rfl⟩ | ⟨l, rfl⟩ | ⟨t, rfl⟩
    all_goals exact exec_badPhase rfl (by simp) hb (outside _ (by simp))
  · have hb : s.ph.isBusy = false := by rw [hp]; rfl
    have hg : s.variant.isGrbl = false := isGrbl_eq_false_iff.mpr hv
    rcases hi with rfl | rfl | rfl | ⟨p, rfl⟩
    all_goals exact exec_badVariant rfl (by simp) hb (by rw [hp]; rfl) hg

/-! ## A job -/

/-- The completions after which a job goes on (R63). -/
theorem jobGoesOn_iff (r : Option Completion) :
    jobGoesOn r = true ↔ (∃ p, r = some (.ok p)) ∨ r = some .suppressed ∨ r = some .skipped := by
  cases r with
  | none => simp [jobGoesOn]
  | some k => cases k <;> simp [jobGoesOn]

/-- The idle step of a job under way is its next line (R63). -/
theorem idleStep_job {rest : List Line} (hj : s.job = l :: rest) : idleStep s = nextOfJob l rest s := by
  simp [idleStep, hj]

/-- Settles O23: an idle step of a job is `nextOfJob`, which feeds. -/
theorem sendjobFeedsLineByLine : Obligations.SendjobFeedsLineByLine := by
  intro s hb
  refine ⟨rfl, fun l rest => ⟨_, ?_, rfl⟩, fun l rest hi hj => ?_⟩
  · simp [exec, execSendjob, hb]
  · rw [← jobGoesOn_iff]
    rw [step_moves hi, sequencerMove_idle hb, idleStep_job hj, nextOfJob]
    exact ⟨fun hg => if_pos hg, fun hg => if_neg hg⟩

/-! ## Transmitted lines -/

/-- On its domain a transmission is one whole line (R64, R108). -/
theorem transmit_line (p : Line) (hl : s.link = true) (hn : hasLine s.term p = false) :
    transmit p s = .next (s.writeLine p) := by
  simp [transmit, hl, hn]

theorem transmit_linkDown (p : Line) (hl : s.link = false) : transmit p s = .fault .txLinkDown := by
  simp [transmit, hl]

theorem transmit_holdsTerm (p : Line) (hl : s.link = true) (hn : hasLine s.term p = true) :
    transmit p s = .fault .txHoldsTerm := by
  simp [transmit, hl, hn]

/-- Settles O24: both rows are `transmit`, TX_CHECKSUMMED of `ckAppend`. -/
theorem transmittedLinesGoOutWhole : Obligations.TransmittedLinesGoOutWhole := fun p _ =>
  ⟨transmit_line p, transmit_line (ckAppend p), fun hl => ⟨transmit_linkDown p hl, transmit_linkDown (ckAppend p) hl⟩,
    transmit_holdsTerm p, transmit_holdsTerm (ckAppend p)⟩

/-! ## The tables of the receive loops -/

theorem push_room (t : Line) (h : s.noticeRoom = true) :
    s.push t = { s with noticeq := s.noticeq ++ [t], log := s.log ++ [⟨.notice, .line t⟩] } := by
  simp [State.push, h]

theorem push_full (t : Line) (h : s.noticeRoom = false) :
    s.push t = { s with novf := true, log := s.log ++ [⟨.discarded, .line t⟩] } := by
  simp [State.push, h]

theorem receiveGrbl_ack (k : GClass) (raw : Line) (hp : s.ph = .busy op (.read (.ack l))) :
    receiveGrbl k raw s = inAck op l k s := by
  simp only [receiveGrbl, hp]

theorem receiveGrbl_acq {u : AcqUse} (k : GClass) (raw : Line) (hp : s.ph = .busy op (.read (.acq u))) :
    receiveGrbl k raw s = inAcq op u k s := by
  simp only [receiveGrbl, hp]

theorem receiveTrinus_recv (k : TClass) (raw : Line) (hp : s.ph = .busy op (.read .recvTrinus)) :
    receiveTrinus k raw s = inTrinus op k s := by
  simp only [receiveTrinus, hp]

theorem receiveMarlin_recv (k : MClass) (raw : Line) (hp : s.ph = .busy op (.read .recvMarlin)) :
    receiveMarlin k raw s = inMarlin op k s := by
  simp only [receiveMarlin, hp]

/-- A status line in the acknowledgment loop, parsed or not (R171, R172). -/
theorem inAck_status_some {rep : StatusReport} (op : Op) (l : Line) (h : parseStatus s.variant raw = some rep) :
    inAck op l (.status raw) s = (s.captured raw rep).goto op (.top (.ack l)) := by
  simp only [inAck, h]

theorem inAck_status_none (op : Op) (l : Line) (h : parseStatus s.variant raw = none) :
    inAck op l (.status raw) s = s.raise .grblStatusParse (.line raw) := by
  simp only [inAck, h]

/-- A status line in a status acquisition, parsed or not (R171, R172, R175). -/
theorem inAcq_status_some {rep : StatusReport} (op : Op) (k : AcqUse) (h : parseStatus s.variant raw = some rep) :
    inAcq op k (.status raw) s = acquired op k rep (s.captured raw rep) := by
  simp only [inAcq, h]

theorem inAcq_status_none (op : Op) (k : AcqUse) (h : parseStatus s.variant raw = none) :
    inAcq op k (.status raw) s = s.raise .grblStatusParse (.line raw) := by
  simp only [inAcq, h]

/-- The terminal acknowledgment ends the operation of a command line (R185, R203, R217). -/
theorem acknowledged (hp : s.ph = .busy op c) (hop : op = .queue ∨ op = .feed) :
    s.clearInflight.complete (.ok (.text okText)) =
      { s with inflight := false, completion := some (.ok (.text [0x6F, 0x6B])), ph := .ready } := by
  have hs : op.sendsLine = true := by rcases hop with rfl | rfl <;> rfl
  rw [complete_busy (s := s.clearInflight) _ hp, sendsLine_endPhase hs, okText_eq]
  rfl

/-- Settles O25: the rows are the cases of `inAck`. -/
theorem ackLoopFollowsItsTable : Obligations.AckLoopFollowsItsTable := by
  intro op l s hp hop
  have row : ∀ k raw, (.next (receiveGrbl k raw s) : Host.Outcome State Fault Refusal) = .next (inAck op l k s) :=
    fun k raw => congrArg _ (receiveGrbl_ack k raw hp)
  refine ⟨fun raw h => ?_, fun raw h => ?_, fun raw rep h => ?_, fun raw h => ?_, fun h => ?_, fun h => ?_, fun raw => ?_⟩
  · exact (row _ _).trans (by rw [inAck, push_room raw h]; rfl)
  · exact (row _ _).trans (by rw [inAck, push_full raw h]; rfl)
  · exact (row _ _).trans (by rw [inAck_status_some op l h]; rfl)
  · exact (row _ _).trans (by rw [inAck_status_none op l h])
  · exact (row .ok okText).trans (by rw [inAck, acked, if_neg (by simpa using h), acknowledged hp hop])
  · exact (row .ok okText).trans (by rw [inAck, acked, if_pos (by simpa using h)]; rfl)
  · exact row _ _

/-- Settles O26: the rows are the cases of `inAcq`, and a captured report goes to `acquired`. -/
theorem acquisitionFollowsItsTable : Obligations.AcquisitionFollowsItsTable := by
  intro op k s hp h1 h2
  have row : ∀ c raw, (.next (receiveGrbl c raw s) : Host.Outcome State Fault Refusal) = .next (inAcq op k c s) :=
    fun c raw => congrArg _ (receiveGrbl_acq c raw hp)
  refine ⟨fun raw h => ?_, fun raw h => ?_, ?_, fun raw => ?_, fun raw h => ?_, fun raw rep h => ?_⟩
  · exact (row _ _).trans (by rw [inAcq, push_room raw h]; rfl)
  · exact (row _ _).trans (by rw [inAcq, push_full raw h]; rfl)
  · exact (row .ok okText).trans (by rw [inAcq, okText_eq]; rfl)
  · exact row _ _
  · exact (row _ _).trans (by rw [inAcq_status_none op k h])
  · have status : exec (.gStatus raw) s = .next (acquired op k rep (s.captured raw rep)) :=
      (row _ _).trans (by rw [inAcq_status_some op k h])
    have answered : (s.captured raw rep).complete (.ok (.report rep)) = { s with
        stValid := true, st := rep, stCapt := true, log := s.log ++ [⟨.status, .line raw⟩],
        completion := some (.ok (.report rep)), ph := .ready } := by
      rw [complete_busy (s := s.captured raw rep) _ hp, endPhase_ready h1 h2]
      rfl
    rw [status]
    refine ⟨?_, ?_, ?_⟩
    · rintro rfl
      rw [acquired, answered]
    · rintro p rfl hh
      rw [acquired, if_pos hh, answered]
    · rintro p rfl hh
      rw [acquired, if_neg (by simp [hh])]
      rfl

/-- Settles O28: the rows are the cases of `inTrinus`. -/
theorem trinusLoopFollowsItsTable : Obligations.TrinusLoopFollowsItsTable := by
  intro op s hp hv hop
  have row : ∀ k raw, (.next (receiveTrinus k raw s) : Host.Outcome State Fault Refusal) = .next (inTrinus op k s) :=
    fun k raw => congrArg _ (receiveTrinus_recv k raw hp)
  refine ⟨row _ _, fun raw => row _ _, fun raw h => ?_, fun raw h => ?_, fun h => ?_, fun h => ?_, fun raw => row _ _⟩
  · exact (row _ _).trans (by rw [inTrinus, push_room raw h]; rfl)
  · exact (row _ _).trans (by rw [inTrinus, push_full raw h]; rfl)
  · have ht : [0x0A] = s.term := by rw [State.term_eq, hv]; rfl
    rw [ht]
    exact (row .ok okText).trans (by rw [inTrinus, if_pos h]; rfl)
  · exact (row .ok okText).trans (by rw [inTrinus, if_neg (by simp [h]), acknowledged hp hop])

/-- Settles O29: the rows are the cases of `inMarlin`. -/
theorem marlinLoopFollowsItsTable : Obligations.MarlinLoopFollowsItsTable := by
  intro op s hp hop
  have row : ∀ k raw, (.next (receiveMarlin k raw s) : Host.Outcome State Fault Refusal) = .next (inMarlin op k s) :=
    fun k raw => congrArg _ (receiveMarlin_recv k raw hp)
  refine ⟨fun raw h => ?_, fun raw h => ?_, ?_, fun raw => row _ _⟩
  · exact (row _ _).trans (by rw [inMarlin, push_room raw h]; rfl)
  · exact (row _ _).trans (by rw [inMarlin, push_full raw h]; rfl)
  · exact (row .ok okText).trans (by rw [inMarlin, acknowledged hp hop])

end Sys2Proof.Machine
end

section
/-!
The framer (40_transport.md): where it cuts (R103), the read time-out (R105, R106), and the operations TOPEN, RDLINE and WRLINE
(R110 to R112).
-/

namespace Sys2Proof

variable {term b l r l' r' : Line}

/-! ## The cut -/

/-- The terminator is found wherever it stands (R103). -/
theorem hasLine_of_append (hn : term ≠ []) (h : b = l ++ term ++ r) : hasLine term b = true := by
  rw [h]
  refine hasLine_append r ?_
  clear h
  induction l with
  | nil =>
    obtain ⟨x, xs, rfl⟩ := List.exists_cons_of_ne_nil hn
    have hp : isPrefix (x :: xs) (x :: xs) = true := (isPrefix_iff _ _).mpr (List.prefix_refl _)
    rw [List.nil_append, hasLine, splitLine, if_pos hp]
    rfl
  | cons y ys ih =>
    rw [hasLine] at ih
    rw [List.cons_append, hasLine, splitLine]
    split
    · rfl
    · simpa using ih

/-- No occurrence of the terminator stands before the cut (R103). -/
theorem splitLine_least (h : splitLine term b = some (l, r)) (hb : b = l' ++ term ++ r') : l.length ≤ l'.length := by
  induction b generalizing l r l' with
  | nil => simp [splitLine] at h
  | cons x xs ih =>
    rw [splitLine] at h
    split at h
    · cases h
      exact Nat.zero_le _
    · rename_i hp
      obtain ⟨⟨m, r⟩, hs, he⟩ := Option.map_eq_some_iff.mp h
      cases he
      cases l' with
      | nil => exact absurd ((isPrefix_iff _ _).mpr ⟨r', hb.symm⟩) hp
      | cons y ys =>
        have hxs : xs = ys ++ term ++ r' := (List.cons.inj hb).2
        exact Nat.succ_le_succ (ih hs hxs)

/-- `split` is defined exactly where the terminator occurs (R103). -/
theorem hasLine_iff (hn : term ≠ []) : hasLine term b = true ↔ ∃ l r, b = l ++ term ++ r := by
  constructor
  · intro h
    obtain ⟨⟨l, r⟩, hs⟩ := Option.isSome_iff_exists.mp h
    exact ⟨l, r, splitLine_append hs⟩
  · rintro ⟨l, r, h⟩
    exact hasLine_of_append hn h

/-- Two decompositions around the terminator with parts before it of one length are the same. -/
theorem append_term_inj (h : l ++ term ++ r = l' ++ term ++ r') (hl : l.length = l'.length) : l = l' ∧ r = r' := by
  rw [List.append_assoc, List.append_assoc] at h
  obtain ⟨h1, h2⟩ := List.append_inj h hl
  exact ⟨h1, List.append_cancel_left h2⟩

/-- `split` cuts at the least position of the terminator (R103). -/
theorem splitLine_iff (hn : term ≠ []) : splitLine term b = some (l, r) ↔
    b = l ++ term ++ r ∧ ∀ l' r', b = l' ++ term ++ r' → l.length ≤ l'.length := by
  constructor
  · intro h
    exact ⟨splitLine_append h, fun l' r' hb => splitLine_least h hb⟩
  · rintro ⟨hb, hmin⟩
    obtain ⟨⟨m, q⟩, hs⟩ := Option.isSome_iff_exists.mp (hasLine_of_append hn hb)
    have hm : b = m ++ term ++ q := splitLine_append hs
    have hlen : m.length = l.length := Nat.le_antisymm (splitLine_least hs hb) (hmin m q hm)
    obtain ⟨rfl, rfl⟩ := append_term_inj (hm.symm.trans hb) hlen
    exact hs

/-- Settles O45: for every terminator that is not empty. -/
theorem splitCutsAtTheFirstTerminator : Obligations.SplitCutsAtTheFirstTerminator := by
  intro v b
  have hn : v.term.bytes ≠ [] := v.term.bytes_ne_nil
  refine ⟨hasLine_iff hn, ?_, fun l r => splitLine_iff hn⟩
  rw [hasLine, Option.isSome_iff_exists]
  exact Prod.exists

end Sys2Proof

namespace Sys2Proof.Machine

variable {s : State} {op : Op} {c : Ctl} {es : List Input}

/-! ## Time-outs -/

theorem step_timeout (hi : s.inputs = .timeout :: es) : step s = .next (timeoutEvent { s with inputs := es }) := by
  simp only [step, hi]
  rfl

/-- A read that waits with no complete line is timed out (R105). -/
theorem timeoutEvent_waiting (hp : s.ph = .busy op c) (hc : c.reads = true) (hl : hasLine s.term s.rxbuf = false) :
    timeoutEvent s = timedOut op c s := by
  simp [timeoutEvent, hp, hc, hl]

/-- Where no read waits a time-out does nothing (R105; log 13). -/
theorem timeoutEvent_no_read (h : ∀ op c, s.ph = .busy op c → c.reads = false) : timeoutEvent s = s := by
  unfold timeoutEvent
  split
  · rename_i op c hp
    simp [h op c hp]
  all_goals rfl

/-- With a complete line in RXBUF a time-out does nothing (R105; log 13). -/
theorem timeoutEvent_line (hl : hasLine s.term s.rxbuf = true) : timeoutEvent s = s := by
  unfold timeoutEvent
  split
  · simp [hl]
  all_goals rfl

/-- A time-out in a loop other than the drain brings it round to its cancel point (R106, R235). -/
theorem timedOut_read {l : Loop} (op : Op) (s : State) (hl : l ≠ .drain) : timedOut op (.read l) s = s.goto op (.top l) := by
  cases l with
  | drain => exact absurd rfl hl
  | _ => rfl

/-- Settles O34: the event is enabled in the first clause only. -/
theorem timeoutLosesNothing : Obligations.TimeoutLosesNothing := by
  intro s es hi
  rw [step_timeout hi]
  refine ⟨fun op l hp hd hn => ?_, fun h => ?_, fun hl => ?_⟩
  · rw [timeoutEvent_waiting (s := { s with inputs := es }) hp rfl hn, timedOut_read op _ hd]
    rfl
  · rw [timeoutEvent_no_read (s := { s with inputs := es }) h]
  · rw [timeoutEvent_line (s := { s with inputs := es }) hl]

/-! ## TOPEN -/

/-- Settles O13: TOPEN is admitted in CLOSED, and its body is run. -/
theorem topenOpensTheLinkOnly : Obligations.TopenOpensTheLinkOnly := by
  intro s hp
  have hx : exec .topen s = .next (present .topen true s fun s => s.reinit.linkUp.complete (.ok .nothing)) := rfl
  rw [hx, present_accepted _ (by rw [hp]; rfl) rfl rfl]
  rfl

/-! ## RDLINE -/

/-- A received line goes to the executing operation (R49, R270). -/
theorem receive_busy (raw : Line) (hp : s.ph = .busy op c) : receive raw s = deliver op c raw s := by
  simp only [receive, hp]

/-- While a read waits and RXBUF holds a complete line, the step takes the line out, logs it and delivers it (R49, R104). -/
theorem step_delivers {raw rest : Line} (hp : s.ph = .busy op c) (hc : c.reads = true) (hi : s.inputs = [])
    (hl : splitLine s.term s.rxbuf = some (raw, rest)) :
    step s = .next (deliver op c raw (({ s with rxbuf := rest } : State).logged .rx (.ofRaw raw))) := by
  rw [stepRunsTheClassOfTheLineRead s op c raw rest hp hc hi hl, exec_classify]
  exact congrArg _ (receive_busy (s := ({ s with rxbuf := rest } : State).logged .rx (.ofRaw raw)) raw hp)

/-- Settles O16: acceptance leads to the read, which ends by a line or a time-out. -/
theorem rdlineReadsOneLine : Obligations.RdlineReadsOneLine := by
  intro s
  refine ⟨fun hp => ?_, fun hp => ⟨fun raw rest hi hl => ?_, fun es hi hn => ?_⟩⟩
  · have hx : exec .rdline s = .next (present .rdline true s fun s => s.goto .rdline .rdline) := rfl
    rw [hx, present_accepted _ (by rw [hp]; rfl) rfl rfl]
    rfl
  · rw [step_delivers hp rfl hi hl, deliver]
    refine ⟨fun ht => ?_, fun ht => ?_⟩
    · rw [ofRaw_text ht, inRdline, complete_busy (s := ({ s with rxbuf := rest } : State).logged _ _) _ hp]
      rfl
    · rw [ofRaw_bad ht, inRdline, complete_busy (s := ({ s with rxbuf := rest } : State).logged _ _) _ hp]
      rfl
  · rw [step_timeout hi, timeoutEvent_waiting (s := { s with inputs := es }) hp rfl hn, timedOut,
      complete_busy (s := { s with inputs := es }) _ hp]
    rfl

/-! ## WRLINE -/

theorem lengthOk_iff (p : Params) (l : Line) : lengthOk p l = true ↔ ∀ m, p.cmdLineMax = some m → l.length ≤ m := by
  cases h : p.cmdLineMax <;> simp [lengthOk, h]

theorem wrlineOk_iff (p : Params) (term t : Line) :
    wrlineOk p term t = true ↔ hasLine term t = false ∧ ∀ m, p.cmdLineMax = some m → t.length ≤ m := by
  rw [wrlineOk, Bool.and_eq_true, Bool.not_eq_true', lengthOk_iff, and_comm]

/-- In READY an unacceptable WRLINE fails the operand check (R112, R140). -/
theorem rejection_wrline (hp : s.ph = .ready) : rejection .wrline false s = some .badArg := by
  rw [rejection, hp]
  rfl

/-- Settles O17: the two clauses are the two verdicts of the operand check. -/
theorem wrlineTransmitsAsGiven : Obligations.WrlineTransmitsAsGiven := by
  intro t s hp
  have hx : exec (.wrline t) s =
    .next (present .wrline (wrlineOk s.par s.term t) s fun s => (s.writeLine t).complete (.ok .nothing)) := rfl
  rw [hx]
  refine ⟨fun hbad => ?_, fun hn hm => ?_⟩
  · have hok : wrlineOk s.par s.term t = false := Bool.eq_false_iff.mpr fun h => by
      obtain ⟨hn, hm⟩ := (wrlineOk_iff _ _ _).mp h
      rcases hbad with hl | ⟨m, hc, hlt⟩
      · exact Bool.false_ne_true (hn.symm.trans hl)
      · exact absurd (hm m hc) (Nat.not_le_of_lt hlt)
    rw [hok, present_rejected _ (by rw [hp]; rfl) (rejection_wrline hp)]
  · have hok : wrlineOk s.par s.term t = true := (wrlineOk_iff _ _ _).mpr ⟨hn, hm⟩
    rw [present_accepted _ (by rw [hp]; rfl) rfl hok]
    rfl

end Sys2Proof.Machine
end

section
/-!
The laws of the checksum (R120, R121, R123): the exclusive OR of a string's bytes part by part, and what it does and does not detect.
-/

namespace Sys2Proof

/-! ## The exclusive OR of a string -/

@[simp] theorem xorAll_nil : xorAll [] = 0 := rfl

theorem xorAll_append (s t : Line) : xorAll (s ++ t) = xorAll s ^^^ xorAll t :=
  calc xorAll (s ++ t)
    _ = t.foldl (· ^^^ ·) (xorAll s) := List.foldl_append
    _ = t.foldl (· ^^^ ·) (xorAll s ^^^ 0) := by rw [show xorAll s ^^^ 0 = xorAll s from BitVec.xor_zero]
    _ = xorAll s ^^^ xorAll t := List.foldl_assoc

theorem xorAll_cons (b : Byte) (s : Line) : xorAll (b :: s) = b ^^^ xorAll s := by
  rw [← List.singleton_append, xorAll_append]
  simp [xorAll]

theorem xorAll_perm {s t : Line} (h : s.Perm t) : xorAll s = xorAll t := h.foldl_op_eq

/-- Bytes that are all below `2 ^ k` have an exclusive OR below it. -/
theorem xorAll_lt_two_pow {k : Nat} {s : Line} (h : ∀ b ∈ s, b.toNat < 2 ^ k) : (xorAll s).toNat < 2 ^ k := by
  induction s with
  | nil => exact Nat.two_pow_pos k
  | cons b s ih =>
    obtain ⟨hb, hs⟩ := List.forall_mem_cons.mp h
    rw [xorAll_cons, BitVec.toNat_xor]
    exact Nat.xor_lt_two_pow hb (ih hs)

/-! ## The checksum -/

/-- The byte for the trailing space is in each part's checksum, so it is put back once (R121 (c)). -/
theorem CK_append (s t : Line) : CK (s ++ t) = CK s ^^^ CK t ^^^ 0x20 := by
  simp only [CK, xorAll_append]
  ac_nf

/-- A repeated byte cancels (R121 (d)). -/
theorem CK_append_twice (s : Line) (b : Byte) : CK (s ++ [b] ++ [b]) = CK s := by
  simp [CK, xorAll_append, xorAll_cons]

/-- The checksum of a text below `0x80` is below `0x80`, for so is the space (R121 (e)). -/
theorem CK_le_of_ascii {s : Line} (h : ∀ b ∈ s, b.toNat < 0x80) : (CK s).toNat ≤ 127 := by
  have hx : (xorAll s).toNat < 2 ^ 7 := xorAll_lt_two_pow h
  have hck : (CK s).toNat < 2 ^ 7 := by
    rw [CK, BitVec.toNat_xor]
    exact Nat.xor_lt_two_pow hx (by decide)
  exact Nat.le_of_lt_succ hck

/-- The checksum around a fixed context tells the bytes apart (R121 (f)). -/
theorem CK_replace_injective (s t : Line) : Function.Injective fun b : Byte => CK (s ++ b :: t) := by
  intro b c h
  simpa [CK, xorAll_append, xorAll_cons] using h

/-! ## The obligations -/

/-- Settles O42: the star that `ckAppend` writes is the last one, so both the check and the cut find the text before it. -/
theorem checksummedTextVerifies : Obligations.ChecksummedTextVerifies :=
  fun t => ⟨ckVerify_ckAppend t, unsuffix_ckAppend t⟩

/-- Settles O43: a transposition is the two-byte change that is missed. -/
theorem checksumLaws : Obligations.ChecksumLaws :=
  ⟨fun _ _ h => by rw [CK, CK, xorAll_perm h], CK_append, CK_append_twice, rfl, rfl,
    fun s => ⟨Nat.le_of_lt_succ (CK s).isLt, CK_le_of_ascii⟩,
    fun s t _ _ hbc => (CK_replace_injective s t).ne hbc,
    ⟨ascii "ab", ascii "ba", rfl, by decide, rfl⟩⟩

end Sys2Proof
end

section
/-!
The operations common to all variants (42_session_common.md): SETVAR (R141), OPEN and its drain (R142, R143), CLOSE (R144), the
operand check and the skip filter of QUEUE and FEED (R146, R148), NPOP (R149).
-/

namespace Sys2Proof.Machine

variable {s : State} {op : Op} {l : Line}

/-! ## What each operation presents -/

theorem exec_setvar (v : Variant) (s : State) : exec (.setvar v) s =
    .next (present .setvar true s fun s => ({ s with variant := v } : State).complete (.ok .nothing)) := rfl

theorem exec_openOp (b : Bool) (s : State) : exec (.openOp b) s = .next (present .openOp true s openBody) := rfl

theorem exec_close (s : State) : exec .close s =
    .next (present .close true s fun s => (if s.link then s.linkDown else s).complete (.ok .nothing)) := rfl

theorem exec_queue (l : Line) (s : State) :
    exec (.queue l) s = .next (present .queue (commandOk s.par l) s (queueBody .queue l)) := rfl

theorem exec_feed (l : Line) (s : State) :
    exec (.feed l) s = .next (present .feed (commandOk s.par l) s (feedBody l)) := rfl

theorem exec_npop (s : State) : exec .npop s = .next (present .npop true s (npopBody s.ph)) := rfl

/-- CLOSE and NPOP are admitted in every phase that is not busy (R140). -/
theorem admits_not_busy {p : Phase} (ho : op = .close ∨ op = .npop) (hb : p.isBusy = false) : op.admits p = true := by
  cases p with
  | busy op c => cases hb
  | _ => rcases ho with rfl | rfl <;> rfl

/-- QUEUE and FEED are admitted in READY (R140). -/
theorem admits_sendsLine (ho : op = .queue ∨ op = .feed) (hp : s.ph = .ready) : op.admits s.ph = true := by
  rw [hp]
  rcases ho with rfl | rfl <;> rfl

/-! ## SETVAR -/

/-- Settles O10: CLOSED admits SETVAR, and READY and FAULTED do not (R140). -/
theorem setvarSelectsTheVariant : Obligations.SetvarSelectsTheVariant := by
  intro v s
  refine ⟨fun hp => ⟨?_, ?_, ?_⟩, fun hp => ?_⟩
  · rw [exec_setvar, present_accepted _ (by rw [hp]; rfl) rfl rfl]
    rfl
  · rintro (rfl | rfl) <;> rfl
  · rintro (rfl | rfl) <;> rfl
  · obtain ⟨outside, -, -⟩ := wrongPhaseOrVariantIsRejected s
    exact outside hp _ (.inr (.inl ⟨v, rfl⟩))

/-! ## OPEN and its drain -/

/-- An empty line goes out as its terminator alone (R108). -/
theorem writeLine_empty (s : State) :
    s.writeLine [] = { s with txout := s.txout ++ s.term, log := s.log ++ [⟨.tx, .line []⟩] } := by
  rw [State.writeLine, List.append_nil]

/-- Settles O11: OPEN is admitted in CLOSED, and its two lines are empty. -/
theorem openFlushesAndStartsTheDrain : Obligations.OpenFlushesAndStartsTheDrain := by
  intro i s hp
  rw [exec_openOp, present_accepted _ (by rw [hp]; rfl) rfl rfl, openBody, writeLine_empty, writeLine_empty]
  rfl

/-- Settles O12: the line read is delivered to the drain, and a time-out is enabled exactly when there is no line (R105). -/
theorem drainDiscardsEveryLine : Obligations.DrainDiscardsEveryLine := by
  intro s hp
  refine ⟨fun raw rest hi hl => ?_, fun es hi hn => ?_, fun es hi hl => ?_⟩
  · rw [step_delivers hp rfl hi hl]
    rfl
  · rw [step_timeout hi, timeoutEvent_waiting (s := { s with inputs := es }) hp rfl hn, timedOut,
      complete_busy (s := { s with inputs := es }) _ hp]
    rfl
  · rw [step_timeout hi, timeoutEvent_line (s := { s with inputs := es }) hl]

/-! ## CLOSE -/

/-- The link is released whether it was up or down; the bytes held back are lost with a link that was up (R101; log 8). -/
theorem linkReleased_eq (s : State) : (if s.link then s.linkDown else s) =
    { s with link := false, carrier := if s.link then [] else s.carrier } := by
  rcases s with ⟨⟨_, _, link⟩, _⟩
  cases link <;> rfl

/-- Settles O14: CLOSE is admitted, and its body is `linkReleased_eq`. -/
theorem closeReleasesTheLink : Obligations.CloseReleasesTheLink := by
  intro s hb
  rw [exec_close, present_accepted _ (admits_not_busy (.inl rfl) hb) rfl rfl, linkReleased_eq]
  rfl

/-! ## NPOP -/

theorem npopBody_empty (p : Phase) (hn : s.noticeq = []) : npopBody p s = { s.complete .empty with ph := p } := by
  simp only [npopBody, hn]

theorem npopBody_cons {t : Line} {rest : List Line} (p : Phase) (hn : s.noticeq = t :: rest) :
    npopBody p s = { s with noticeq := rest, completion := some (.ok (.text t)), ph := p } := by
  simp only [npopBody, hn]
  rfl

/-- Settles O15: NPOP is admitted, and its body goes by whether NOTICEQ is empty. -/
theorem npopRemovesTheOldestNotice : Obligations.NpopRemovesTheOldestNotice := by
  intro s hb
  rw [exec_npop, present_accepted _ (admits_not_busy (.inr rfl) hb) rfl rfl]
  refine ⟨fun hn => ?_, fun t rest hn => ?_⟩
  · rw [npopBody_empty (s := s.accept .npop) _ hn]
    rfl
  · rw [npopBody_cons (s := s.accept .npop) _ hn]
    rfl

/-! ## The operand of QUEUE and FEED -/

theorem isPrintable_iff (b : Byte) : isPrintable b = true ↔ 0x20 ≤ b.toNat ∧ b.toNat ≤ 0x7E := by simp [isPrintable]

theorem commandOk_iff (p : Params) (l : Line) : commandOk p l = true ↔
    (∀ m, p.cmdLineMax = some m → l.length ≤ m) ∧ ∀ b ∈ l, 0x20 ≤ b.toNat ∧ b.toNat ≤ 0x7E := by
  simp only [commandOk, Bool.and_eq_true, lengthOk_iff, List.all_eq_true, isPrintable_iff]

/-- Where the phase and the variant are right, a bad operand is what the check of R140 finds. -/
theorem rejection_badArg (ha : op.admits s.ph = true) (hv : op.variantOk s.variant = true) :
    rejection op false s = some .badArg := by
  simp [rejection, ha, hv]

/-- Settles O9: the operand check is the one that fails. -/
theorem badCommandLineIsRejected : Obligations.BadCommandLineIsRejected := by
  intro l s hp hbad
  have hok : commandOk s.par l = false := Bool.eq_false_iff.mpr fun h => by
    obtain ⟨hlen, hbytes⟩ := (commandOk_iff _ _).mp h
    rcases hbad with ⟨m, hm, hlt⟩ | ⟨b, hb, hout⟩
    · exact absurd (hlen m hm) (Nat.not_le_of_lt hlt)
    · have := hbytes b hb
      omega
  have hidle : s.ph.isBusy = false := by rw [hp]; rfl
  rw [exec_queue, exec_feed, hok,
    present_rejected _ hidle (rejection_badArg (admits_sendsLine (.inl rfl) hp) rfl),
    present_rejected _ hidle (rejection_badArg (admits_sendsLine (.inr rfl) hp) rfl)]
  exact ⟨rfl, rfl⟩

/-! ## The skip filter -/

/-- The one printable byte that is white space is the space (R126, R146). -/
theorem isWS_iff_of_printable {b : Byte} (h : 0x20 ≤ b.toNat) : isWS b = true ↔ b = 0x20 := by
  rw [isWS_iff]
  refine ⟨fun hw => ?_, .inr⟩
  rcases hw with ⟨-, hle⟩ | hb
  · omega
  · exact hb

/-- Of the acceptable lines the skip filter takes the blank ones and those that start with `%` or `(` (R133). -/
theorem skip_iff {p : Params} (h : commandOk p l = true) :
    skip l = true ↔ (∀ b ∈ l, b = 0x20) ∨ l.head? = some 0x25 ∨ l.head? = some 0x28 := by
  obtain ⟨-, hbytes⟩ := (commandOk_iff p l).mp h
  have blank : l.all isWS = true ↔ ∀ b ∈ l, b = 0x20 := by
    rw [List.all_eq_true]
    exact forall₂_congr fun b hb => isWS_iff_of_printable (hbytes b hb).1
  rw [← blank]
  cases l with
  | nil => simp [skip]
  | cons b bs => simp [skip, or_assoc]

/-! ## FEED as QUEUE -/

/-- The state with its phase renamed: what QUEUE answers, under the name FEED (R148). -/
def State.asFeed (t : State) : State := { t with ph := t.ph.asFeed }

theorem queueGrbl_asFeed (l : Line) (s : State) :
    queueGrbl .feed l (s.accept .feed) = (queueGrbl .queue l (s.accept .queue)).asFeed := by
  unfold queueGrbl
  split
  · rfl
  · rfl

/-- The transform does not look at the name, so QUEUE and FEED differ by their transmission only (R201, R216). -/
theorem queueTransformed_asFeed (l : Line) (s : State) {send : Op → State → State}
    (hs : ∀ u, send .feed { s.accept .feed with cur := u } = (send .queue { s.accept .queue with cur := u }).asFeed) :
    queueTransformed l (send .feed) (s.accept .feed) = (queueTransformed l (send .queue) (s.accept .queue)).asFeed := by
  simp only [queueTransformed, State.accept_par]
  split
  · rfl
  · exact hs _

/-- The body that QUEUE and FEED share does the same under either name (R148). -/
theorem queueBody_asFeed (l : Line) (s : State) :
    queueBody .feed l (s.accept .feed) = (queueBody .queue l (s.accept .queue)).asFeed := by
  simp only [queueBody, State.accept_variant]
  split
  · exact queueGrbl_asFeed l s
  · exact queueGrbl_asFeed l s
  · exact queueTransformed_asFeed l s fun _ => rfl
  · exact queueTransformed_asFeed l s fun _ => rfl

/-- Settles O21: `skip_iff` says which lines are skipped, `queueBody_asFeed` what is done with the others. -/
theorem feedSkipsOrQueues : Obligations.FeedSkipsOrQueues := by
  intro l s hp hok
  rw [exec_feed, present_accepted _ (admits_sendsLine (.inr rfl) hp) rfl hok, feedBody, ← skip_iff hok]
  refine ⟨fun hs => ?_, fun hs => ?_⟩
  · rw [if_pos hs]
    rfl
  · refine ⟨queueBody .queue l (s.accept .queue), ?_, ?_⟩
    · rw [exec_queue, present_accepted _ (admits_sendsLine (.inl rfl) hp) rfl hok]
    · rw [if_neg hs, queueBody_asFeed]
      rfl

end Sys2Proof.Machine
end

section
/-!
The two status grammars (R76 to R79, R172): only status-shaped lines parse, and no line parses in both dialects, because behind
the state a Grbl 0.9 report has a comma and a Grbl 1.1 report a colon, a bar or the closing bracket.
-/

namespace Sys2Proof

/-! ## Productions leave a suffix -/

/-- A production takes bytes from the head of a string only: what it leaves is a suffix. -/
def LeavesSuffix {α : Type} (p : Line → Option (α × Line)) : Prop := ∀ {s a r}, p s = some (a, r) → r <:+ s

theorem takeLit_eq_some {p s r : Line} (h : takeLit p s = some r) : s = p ++ r := by
  unfold takeLit at h
  split at h
  · rename_i hp
    obtain ⟨m, rfl⟩ := (isPrefix_iff _ _).mp hp
    cases h
    rw [List.drop_left]
  · cases h

theorem takeLit_suffix {p s r : Line} (h : takeLit p s = some r) : r <:+ s := ⟨p, (takeLit_eq_some h).symm⟩

theorem takeState_rest {s w r : Line} (h : takeState s = some (w, r)) : r = s.dropWhile isLetter := by
  simp only [takeState] at h
  split at h
  · cases h
  · cases h
    rfl

theorem takeState_suffix : LeavesSuffix takeState := fun h => takeState_rest h ▸ List.dropWhile_suffix _

theorem takeUint_suffix : LeavesSuffix takeUint := by
  intro s n r h
  simp only [takeUint] at h
  split at h
  · cases h
    exact List.dropWhile_suffix _
  · cases h

theorem takeUnsigned_suffix : LeavesSuffix takeUnsigned := by
  intro s w r h
  simp only [takeUnsigned] at h
  split at h
  · cases h
  · have hd := List.dropWhile_suffix (l := s) isDigit
    split at h
    · cases h
      exact List.nil_suffix
    · rename_i b m hm
      rw [hm] at hd
      split at h
      · cases h
        exact (List.dropWhile_suffix _).trans ((List.suffix_cons b m).trans hd)
      · cases h
        exact hd

theorem takeNumber_suffix : LeavesSuffix takeNumber := by
  intro s w r h
  unfold takeNumber at h
  split at h
  · cases h
  · rename_i b m
    split at h
    · obtain ⟨⟨w', r'⟩, hu, he⟩ := Option.map_eq_some_iff.mp h
      cases he
      exact (takeUnsigned_suffix hu).trans (List.suffix_cons b m)
    · exact takeUnsigned_suffix h

theorem takeTriple_suffix : LeavesSuffix takeTriple := by
  intro s x r h
  simp only [takeTriple, Option.bind_eq_bind, Option.bind_eq_some_iff, Option.pure_def, Prod.exists] at h
  obtain ⟨_, _, hx, _, hc, _, _, hy, _, hd, _, _, hz, h⟩ := h
  cases h
  exact (takeNumber_suffix hz).trans <| (takeLit_suffix hd).trans <| (takeNumber_suffix hy).trans <|
    (takeLit_suffix hc).trans (takeNumber_suffix hx)

/-- An optional group is absent and takes nothing, or stands there with its key. -/
theorem optGroup_cases {α : Type} {key s r : Line} {p : Line → Option (α × Line)} {x : Option α}
    (h : optGroup key p s = some (x, r)) : r = s ∨ ∃ m a, s = key ++ m ∧ p m = some (a, r) := by
  unfold optGroup at h
  split at h
  · cases h
    exact .inl rfl
  · rename_i m hk
    obtain ⟨⟨a, r'⟩, hp, he⟩ := Option.map_eq_some_iff.mp h
    cases he
    exact .inr ⟨m, a, takeLit_eq_some hk, hp⟩

theorem optGroup_suffix {α : Type} {key : Line} {p : Line → Option (α × Line)} (hp : LeavesSuffix p) :
    LeavesSuffix (optGroup key p) := by
  intro s x r h
  rcases optGroup_cases h with rfl | ⟨m, a, rfl, hm⟩
  · exact List.suffix_refl _
  · exact (hp hm).trans (List.suffix_append key m)

/-- If the byte that begins an optional group's key stands behind the group, it stands at its place with or without the group. -/
theorem optGroup_head {α : Type} {b : Byte} {key s r : Line} {p : Line → Option (α × Line)} {x : Option α}
    (h : optGroup (b :: key) p s = some (x, r)) (hr : r.head? = some b) : s.head? = some b := by
  rcases optGroup_cases h with rfl | ⟨m, a, rfl, -⟩
  · exact hr
  · rfl

/-! ## The byte behind the state -/

/-- The byte of a status line that stands behind the opening bracket and the letters of the state. -/
def byteAfterState (t : Line) : Option Byte := ((t.drop 1).dropWhile isLetter).head?

/-- A Grbl 0.9 report stands between angle brackets, and a comma stands behind its state (R79). -/
theorem parse09_shape {t : Line} {rep : StatusReport} (h : parse09 t = some rep) :
    (∃ s, t = 0x3C :: s ∧ [0x3E] <:+ s) ∧ byteAfterState t = some 0x2C := by
  simp only [parse09, Option.bind_eq_bind, Option.bind_eq_some_iff, Option.pure_def, Prod.exists] at h
  obtain ⟨s0, h0, _, s1, h1, _, s2, h2, _, s3, h3, s4, h4, _, s5, h5, s6, h6, _, s7, h7, _, s8, h8, _, s9, h9, h⟩ := h
  have opens : t = 0x3C :: s0 := takeLit_eq_some h0
  have comma : s1.head? = some 0x2C := by
    have hb : s3.head? = some 0x2C := by rw [takeLit_eq_some h4]; rfl
    exact optGroup_head h2 (optGroup_head h3 hb)
  split at h
  · rename_i hs
    have closes : [0x3E] <:+ s0 := by
      rw [← show s9 = [0x3E] from hs]
      exact (optGroup_suffix takeNumber_suffix h9).trans <| (optGroup_suffix takeUint_suffix h8).trans <|
        (takeUint_suffix h7).trans <| (takeLit_suffix h6).trans <| (takeUint_suffix h5).trans <| (takeLit_suffix h4).trans <|
        (optGroup_suffix takeTriple_suffix h3).trans <| (optGroup_suffix takeTriple_suffix h2).trans (takeState_suffix h1)
    refine ⟨⟨s0, opens, closes⟩, ?_⟩
    rw [byteAfterState, opens, List.drop_one, List.tail_cons, ← takeState_rest h1, comma]
  · cases h

/-- A cut has at least one part. -/
theorem cutAt_ne_nil (sep : Byte) (s : Line) : cutAt sep s ≠ [] := by
  cases s with
  | nil => exact List.cons_ne_nil _ _
  | cons b bs =>
    rw [cutAt]
    split
    · exact List.cons_ne_nil _ _
    · split <;> exact List.cons_ne_nil _ _

/-- The first part of a cut is the whole string, or stands before a separator. -/
theorem cutAt_first {sep : Byte} {s p : Line} {ps : List Line} (h : cutAt sep s = p :: ps) :
    s = p ∨ ∃ m, s = p ++ sep :: m := by
  induction s generalizing p ps with
  | nil =>
    cases h
    exact .inl rfl
  | cons b bs ih =>
    rw [cutAt] at h
    split at h
    · rename_i hb
      cases h
      exact .inr ⟨bs, by rw [hb, List.nil_append]⟩
    · split at h
      · rename_i hn
        exact absurd hn (cutAt_ne_nil sep bs)
      · rename_i q qs hq
        cases h
        rcases ih hq with rfl | ⟨m, rfl⟩
        · exact .inl rfl
        · exact .inr ⟨m, rfl⟩

/-- The first part of a Grbl 1.1 report ends with its state, or a colon follows (R78). -/
theorem head11_rest {s : Line} {x : Line × Option Num} (h : head11 s = some x) :
    s.dropWhile isLetter = [] ∨ ∃ m, s.dropWhile isLetter = 0x3A :: m := by
  simp only [head11, Option.bind_eq_bind, Option.bind_eq_some_iff, Prod.exists] at h
  obtain ⟨w, r, hs, h⟩ := h
  rw [← takeState_rest hs]
  split at h
  · rename_i he
    exact .inl (List.isEmpty_iff.mp he)
  · obtain ⟨m, hm, -⟩ := Option.bind_eq_some_iff.mp h
    exact .inr ⟨m, takeLit_eq_some hm⟩

/-- Where a byte `e` that is no letter follows the first part of a Grbl 1.1 report, a colon or `e` stands behind the state. -/
theorem head11_follow {s m : Line} {e : Byte} {x : Line × Option Num} (h : head11 s = some x) (he : isLetter e = false) :
    ((s ++ e :: m).dropWhile isLetter).head? = some 0x3A ∨ ((s ++ e :: m).dropWhile isLetter).head? = some e := by
  rw [List.dropWhile_append]
  rcases head11_rest h with hr | ⟨r, hr⟩
  · exact .inr (by simp [hr, he])
  · exact .inl (by simp [hr])

/-- A Grbl 1.1 report stands between angle brackets, and no comma stands behind its state (R78). -/
theorem parse11_shape {t : Line} {rep : StatusReport} (h : parse11 t = some rep) :
    isStatusShaped t = true ∧ byteAfterState t ≠ some 0x2C := by
  unfold parse11 at h
  split at h
  · rename_i hs
    refine ⟨hs, ?_⟩
    obtain ⟨m, rfl⟩ := (isStatusShaped_iff _).mp hs
    have hinner : inner ([0x3C] ++ m ++ [0x3E]) = m := by simp [inner]
    have hafter : byteAfterState ([0x3C] ++ m ++ [0x3E]) = ((m ++ [0x3E]).dropWhile isLetter).head? := rfl
    rw [hinner] at h
    split at h
    · cases h
    · rename_i p ps hc
      obtain ⟨x, hx, -⟩ := Option.bind_eq_some_iff.mp h
      rw [hafter]
      rcases cutAt_first hc with rfl | ⟨q, rfl⟩
      · rcases head11_follow (e := 0x3E) (m := []) hx (by decide) with hb | hb <;> rw [hb] <;> decide
      · rw [List.append_assoc, List.cons_append]
        rcases head11_follow (e := 0x7C) (m := q ++ [0x3E]) hx (by decide) with hb | hb <;> rw [hb] <;> decide
  · cases h

theorem parse09_statusShaped {t : Line} {rep : StatusReport} (h : parse09 t = some rep) : isStatusShaped t = true := by
  obtain ⟨⟨s, rfl, m, rfl⟩, -⟩ := parse09_shape h
  exact (isStatusShaped_iff _).mpr ⟨m, rfl⟩

/-- No line is a report of both dialects: the byte behind the state tells them apart. -/
theorem not_parse09_and_parse11 {t : Line} {a b : StatusReport} (h09 : parse09 t = some a) (h11 : parse11 t = some b) : False :=
  (parse11_shape h11).2 (parse09_shape h09).2

/-- Settles O46: the dialects by the byte behind the state, the brackets by the shape each grammar asks for. -/
theorem dialectsExcludeEachOther : Obligations.DialectsExcludeEachOther := by
  intro t
  refine ⟨fun h => ?_, fun h => ?_, fun v h => ?_, rfl, rfl⟩
  · obtain ⟨a, ha⟩ := Option.isSome_iff_exists.mp h
    exact Option.eq_none_iff_forall_ne_some.mpr fun b hb => not_parse09_and_parse11 ha hb
  · obtain ⟨b, hb⟩ := Option.isSome_iff_exists.mp h
    exact Option.eq_none_iff_forall_ne_some.mpr fun a ha => not_parse09_and_parse11 ha hb
  · obtain ⟨rep, hr⟩ := Option.isSome_iff_exists.mp h
    cases v with
    | grbl09 => exact parse09_statusShaped hr
    | grbl11 => exact (parse11_shape hr).1
    | trinus => cases hr
    | marlin => cases hr

end Sys2Proof
end

section
/-!
The Grbl variants (43_grbl.md): the predicates (R177 to R179), the operations that send a status query (R175, R181, R184), the
gate (R188), the sleep (R182) and the program-end reads (R186).
-/

namespace Sys2Proof.Machine

variable {s : State} {op : Op} {l : Line} {n : Nat}

/-! ## The predicates -/

theorem gate09_iff (r : StatusReport) : gate09 r = true ↔ r.cmdbuf.toNat < 10 ∧ r.rxbuf.toNat < 100 := by simp [gate09]

theorem gate11_iff (n : Nat) (r : StatusReport) : gate11 n r = true ↔ 2 < r.cmdbuf.toNat ∧ 5 + n < r.rxbuf.toNat := by
  simp [gate11]

theorem idleText_eq : idleText = [0x49, 0x64, 0x6C, 0x65] := by decide

theorem isIdle_iff (r : StatusReport) : isIdle r = true ↔ r.state = [0x49, 0x64, 0x6C, 0x65] := by
  rw [isIdle, beq_iff_eq, idleText_eq]

/-- Settles O48: each predicate is its comparison. -/
theorem predicatesCompareTheReport : Obligations.PredicatesCompareTheReport := by
  intro r n
  refine ⟨gate09_iff r, ?_, isIdle_iff r⟩
  rw [holds, gate11_iff]
  omega

/-- The gate of each Grbl variant (R184). -/
theorem holds_gatePred_iff {v : Variant} (l : Line) (r : StatusReport) (hv : v = .grbl09 ∨ v = .grbl11) :
    holds (gatePred v l) r = true ↔
      (v = .grbl09 ∧ r.cmdbuf.toNat < 10 ∧ r.rxbuf.toNat < 100) ∨
      (v = .grbl11 ∧ 2 < r.cmdbuf.toNat ∧ 5 + l.length < r.rxbuf.toNat) := by
  rcases hv with rfl | rfl
  · simp [gatePred, holds, gate09_iff]
  · simp [gatePred, holds, gate11_iff]

/-! ## Operations that send a status query -/

theorem queryLine_eq : queryLine = [0x3F] := by decide

theorem startStatus_eq (op : Op) (k : AcqUse) (s : State) : startStatus op k s = { s with
    stCapt := false, txout := s.txout ++ [0x3F] ++ s.variant.term.bytes, log := s.log ++ [⟨.tx, .line [0x3F]⟩],
    ph := .busy op (.top (.acq k)) } := by
  rw [startStatus, queryLine_eq]
  rfl

theorem sendGrbl_eq (op : Op) (l : Line) (s : State) : sendGrbl op l s = { s with
    inflight := true, txout := s.txout ++ l ++ s.variant.term.bytes, log := s.log ++ [⟨.tx, .line l⟩],
    ph := .busy op (.top (.ack l)) } := rfl

/-- On the Grbl variants QUEUE and FEED run `QueueGrbl` (R145). -/
theorem queueBody_grbl (op : Op) (l : Line) (hv : s.variant.isGrbl = true) : queueBody op l s = queueGrbl op l s := by
  unfold queueBody
  rcases isGrbl_iff.mp hv with h | h <;> rw [h]

/-- Settles O18: QUEUE is admitted in READY, and only the query line skips the gate. -/
theorem queueOnGrblPollsFirst : Obligations.QueueOnGrblPollsFirst := by
  intro l s hp hv hok
  have hg : s.variant.isGrbl = true := isGrbl_iff.mpr hv
  rw [exec_queue, present_accepted _ (admits_sendsLine (.inl rfl) hp) rfl hok, queueBody_grbl (s := s.accept .queue) _ _ hg,
    queueGrbl, queryLine_eq, ← isGrbl_term hg]
  refine ⟨fun hl => ?_, fun hl => ?_⟩
  · rw [if_neg hl, startStatus_eq]
    rfl
  · rw [if_pos hl, sendGrbl_eq, hl]
    rfl

/-- STATUS and WAITST, presented in READY on a Grbl variant, are accepted and send one query (R140, R176, R183). -/
theorem present_startStatus (k : AcqUse) (hop : op = .status ∨ op = .waitst) (hp : s.ph = .ready)
    (hv : s.variant.isGrbl = true) : present op true s (startStatus op k) = { s with
      cancel := false, completion := none, stCapt := false, txout := s.txout ++ [0x3F] ++ [0x0D, 0x0A],
      log := s.log ++ [⟨.tx, .line [0x3F]⟩], ph := .busy op (.top (.acq k)) } := by
  have phase : op.admits s.ph = true := by rw [hp]; rcases hop with rfl | rfl <;> rfl
  have variant : op.variantOk s.variant = true := by rcases hop with rfl | rfl <;> exact hv
  rw [present_accepted _ phase variant rfl, startStatus_eq, ← isGrbl_term hv]
  rfl

theorem exec_status (s : State) : exec .status s = .next (present .status true s (startStatus .status .status)) := rfl

theorem exec_waitst (p : Pred) (s : State) :
    exec (.waitst p) s = .next (present .waitst true s (startStatus .waitst (.waitst p))) := rfl

/-- The abbreviations of R63. -/
theorem exec_query (s : State) : exec .query s = exec .status s := rfl

theorem exec_waitidle (s : State) : exec .waitidle s = exec (.waitst .idle) s := rfl

/-- Settles O22: STATUS and WAITST are admitted in READY on the Grbl variants, and the abbreviations are theirs. -/
theorem statusAndWaitstQueryAfresh : Obligations.StatusAndWaitstQueryAfresh := by
  intro s hp hv
  have hg : s.variant.isGrbl = true := isGrbl_iff.mpr hv
  have status := (exec_status s).trans (congrArg _ (present_startStatus .status (.inl rfl) hp hg))
  have waitst := fun p => (exec_waitst p s).trans (congrArg _ (present_startStatus (.waitst p) (.inr rfl) hp hg))
  refine ⟨?_, ?_⟩
  · rintro i (rfl | rfl)
    · exact status
    · exact (exec_query s).trans status
  · rintro i p (rfl | ⟨rfl, rfl⟩)
    · exact waitst p
    · exact (exec_waitidle s).trans (waitst .idle)

/-! ## The gate -/

/-- A status line that parses reaches what the acquisition is for (R171, R174, R175). -/
theorem exec_gStatus_acquired {k : AcqUse} {raw : Line} {rep : StatusReport} (hp : s.ph = .busy op (.read (.acq k)))
    (h : parseStatus s.variant raw = some rep) : exec (.gStatus raw) s = .next (acquired op k rep (s.captured raw rep)) :=
  congrArg _ ((receiveGrbl_acq (.status raw) raw hp).trans (inAcq_status_some op k h))

/-- Settles O27: the report is captured, and the two clauses are the two verdicts of the gate. -/
theorem gateSendsOnlyOnAPassingReport : Obligations.GateSendsOnlyOnAPassingReport := by
  intro op l raw rep s hp hv hrep
  rw [exec_gStatus_acquired hp hrep, acquired, State.captured_variant, ← holds_gatePred_iff l rep hv,
    ← isGrbl_term (isGrbl_iff.mpr hv)]
  refine ⟨fun hpass => ?_, fun hfail => ?_⟩
  · rw [if_pos hpass, sendGrbl_eq]
    rfl
  · rw [if_neg hfail]
    rfl

/-! ## The sleep -/

/-- In the sleep the poll-interval event starts the acquisition again (R181, R182). -/
theorem pollEvent_sleep {k : AcqUse} (hp : s.ph = .busy op (.sleep k)) : pollEvent s = startStatus op k s := by
  simp only [pollEvent, hp]

/-- Outside the sleep the event does nothing (R182; log 13). -/
theorem pollEvent_awake (h : ∀ op k, s.ph ≠ .busy op (.sleep k)) : pollEvent s = s := by
  unfold pollEvent
  split
  · rename_i hp
    exact absurd hp (h _ _)
  · rfl

theorem step_poll {es : List Input} (hi : s.inputs = .poll :: es) : step s = .next (pollEvent { s with inputs := es }) := by
  simp only [step, hi]
  rfl

/-- Settles O35: the event is enabled in the sleep only. -/
theorem pollEventStartsAFreshQuery : Obligations.PollEventStartsAFreshQuery := by
  intro s es hi
  rw [step_poll hi]
  refine ⟨fun op k hp => ?_, fun h => ?_⟩
  · rw [pollEvent_sleep (s := { s with inputs := es }) hp, startStatus_eq]
  · rw [pollEvent_awake (s := { s with inputs := es }) h]

/-! ## The program-end reads -/

/-- A read that is not the last is followed by the next (R186). -/
theorem pgmEndNext_more (op : Op) (s : State) (h : 2 ≤ n) : pgmEndNext op n s = { s with ph := .busy op (.pgmEnd (n - 1)) } :=
  if_neg (by omega)

/-- After the last read the operation completes OK (R186). -/
theorem pgmEndNext_last {c : Ctl} (hp : s.ph = .busy op c) (hop : op = .queue ∨ op = .feed) :
    pgmEndNext op 1 s = { s with completion := some (.ok (.text [0x6F, 0x6B])), ph := .ready } := by
  have hs : op.sendsLine = true := by rcases hop with rfl | rfl <;> rfl
  rw [pgmEndNext, if_pos (Nat.le_refl 1), complete_busy _ hp, sendsLine_endPhase hs, okText_eq]

/-- Settles O30: a line read and a time-out alike end one of the reads, which `pgmEndNext` counts. -/
theorem programEndReadsAreCounted : Obligations.ProgramEndReadsAreCounted := by
  intro op n s hp hop
  refine ⟨fun raw rest hi hl => ?_, fun es hi hn => ?_⟩
  · rw [step_delivers hp rfl hi hl, deliver]
    refine ⟨fun h => ?_, ?_⟩
    · rw [pgmEndNext_more _ _ h]
      rfl
    · rintro rfl
      rw [pgmEndNext_last (s := (({ s with rxbuf := rest } : State).logged _ _).logged _ _) hp hop]
      rfl
  · rw [step_timeout hi, timeoutEvent_waiting (s := { s with inputs := es }) hp rfl hn, timedOut]
    refine ⟨fun h => ?_, ?_⟩
    · rw [pgmEndNext_more _ _ h]
    · rintro rfl
      rw [pgmEndNext_last (s := { s with inputs := es }) hp hop]

end Sys2Proof.Machine
end

section
/-!
The TRINUS variant (44_trinus.md): QUEUE transmits the transformed line and awaits its acknowledgment (R201). The lemmas about the
transform serve every variant that has one.
-/

namespace Sys2Proof.Machine

variable {s : State} {op : Op} {l u : Line}

/-! ## A line behind its transform -/

theorem queueTransformed_suppress (send : State → State) (h : shorten s.par l = .suppress) :
    queueTransformed l send s = s.complete .suppressed := by
  simp only [queueTransformed, h]

theorem queueTransformed_send (send : State → State) (h : shorten s.par l = .send u) :
    queueTransformed l send s = send { s with cur := u } := by
  simp only [queueTransformed, h]

/-- A line suppressed under QUEUE or FEED ends the operation at once (R201, R216). -/
theorem complete_suppressed_accept (s : State) (hop : op = .queue ∨ op = .feed) :
    (s.accept op).complete .suppressed = { s with cancel := false, completion := some .suppressed, ph := .ready } := by
  have hs : op.sendsLine = true := by rcases hop with rfl | rfl <;> rfl
  rw [complete_busy (s := s.accept op) _ rfl, sendsLine_endPhase hs]
  rfl

/-! ## QUEUE -/

/-- On TRINUS QUEUE and FEED run `QueueTrinus` (R145). -/
theorem queueBody_trinus (op : Op) (l : Line) (hv : s.variant = .trinus) :
    queueBody op l s = queueTransformed l (sendTrinus op) s := by
  simp only [queueBody, hv]

theorem sendTrinus_eq (op : Op) (hv : s.variant = .trinus) : sendTrinus op s = { s with
    resend := false, inflight := true, txout := s.txout ++ s.cur ++ [0x0A], log := s.log ++ [⟨.tx, .line s.cur⟩],
    ph := .busy op (.top .recvTrinus) } := by
  have hterm : [0x0A] = s.term := by rw [State.term_eq, hv]; rfl
  rw [hterm]
  rfl

/-- Settles O19: QUEUE is admitted in READY, and its body goes by what the transform answers. -/
theorem queueOnTrinusTransmitsTheTransformedLine : Obligations.QueueOnTrinusTransmitsTheTransformedLine := by
  intro l s hp hv hok
  rw [exec_queue, present_accepted _ (admits_sendsLine (.inl rfl) hp) rfl hok, queueBody_trinus (s := s.accept .queue) _ _ hv]
  refine ⟨fun hu => ?_, fun u hu => ?_⟩
  · rw [queueTransformed_suppress (s := s.accept .queue) _ hu, complete_suppressed_accept s (.inl rfl)]
  · rw [queueTransformed_send (s := s.accept .queue) _ hu,
      sendTrinus_eq (s := { s.accept .queue with cur := u }) _ hv]
    rfl

end Sys2Proof.Machine
end

section
/-!
The MARLIN variant (45_marlin.md): QUEUE transmits the transformed line and awaits its acknowledgment (R216). The lemmas about a
line behind its transform are those of the TRINUS variant.
-/

namespace Sys2Proof.Machine

variable {s : State}

/-- On MARLIN QUEUE and FEED run `QueueMarlin` (R145). -/
theorem queueBody_marlin (op : Op) (l : Line) (hv : s.variant = .marlin) :
    queueBody op l s = queueTransformed l (sendMarlin op) s := by
  simp only [queueBody, hv]

/-- What `sendMarlin` writes: unlike the Trinus transmission (`sendTrinus_eq`), it leaves RESEND as it was (R216). -/
theorem sendMarlin_eq (op : Op) (hv : s.variant = .marlin) : sendMarlin op s = { s with
    inflight := true, txout := s.txout ++ s.cur ++ [0x0A], log := s.log ++ [⟨.tx, .line s.cur⟩],
    ph := .busy op (.top .recvMarlin) } := by
  have hterm : [0x0A] = s.term := by rw [State.term_eq, hv]; rfl
  rw [hterm]
  rfl

/-- Settles O20: QUEUE is admitted in READY, and its body goes by what the transform answers. -/
theorem queueOnMarlinTransmitsTheTransformedLine : Obligations.QueueOnMarlinTransmitsTheTransformedLine := by
  intro l s hp hv hok
  rw [exec_queue, present_accepted _ (admits_sendsLine (.inl rfl) hp) rfl hok, queueBody_marlin (s := s.accept .queue) _ _ hv]
  refine ⟨fun hsuppressed => ?_, fun u hsent => ?_⟩
  · rw [queueTransformed_suppress (s := s.accept .queue) _ hsuppressed, complete_suppressed_accept s (.inl rfl)]
  · rw [queueTransformed_send (s := s.accept .queue) _ hsent,
      sendMarlin_eq (s := { s.accept .queue with cur := u }) _ hv]
    rfl

end Sys2Proof.Machine
end

section
/-!
Exceptions (60_exceptions.md): a fatal error is taken as one step (R230, R236), FAULTED is left by CLOSE only (R238), and CANCEL
is honoured at the next cancel point, at most one time-out away (R240 to R242).
-/

namespace Sys2Proof.Machine

variable {s t u : State} {i : Instr} {op : Op} {l : Loop}

/-! ## Taking a fatal error -/

/-- An executing operation completes FATAL (R236). -/
theorem raise_busy (e : ErrCode) (r : Received) (hb : s.ph.isBusy = true) : s.raise e r = { s with
    errCode := e.code, errText := r, inflight := false, link := false, carrier := [], log := s.log ++ [⟨.error, r⟩],
    completion := some (.fatal e r), ph := .faulted } := by
  rw [State.raise, State.fatalRecord, if_pos hb]

/-- With no operation executing the completion record stays as it was (R236). -/
theorem raise_idle (e : ErrCode) (r : Received) (hb : s.ph.isBusy = false) : s.raise e r = { s with
    errCode := e.code, errText := r, inflight := false, link := false, carrier := [], log := s.log ++ [⟨.error, r⟩],
    ph := .faulted } := by
  rw [State.raise, State.fatalRecord, if_neg (by simp [hb])]

/-- Settles O33: each of the rows is `raise`, whose record depends on whether an operation executes. -/
theorem fatalErrorIsTakenAsOneStep : Obligations.FatalErrorIsTakenAsOneStep := by
  intro e text s i code hi
  have row : exec i s = .next (s.raise e text) ∧ code = e.code := by
    rcases hi with ⟨rfl, rfl, rfl⟩ | ⟨rfl, rfl, rfl⟩ | ⟨rfl, rfl, rfl⟩ | ⟨rfl, rfl, rfl, rfl⟩ | ⟨rfl, rfl⟩ <;>
      exact ⟨rfl, rfl⟩
  obtain ⟨hexec, rfl⟩ := row
  rw [hexec]
  exact ⟨fun hb => by rw [raise_busy e text hb], fun hb => by rw [raise_idle e text hb]⟩

/-! ## FAULTED -/

/-- The two states agree on what FAULTED keeps: TXOUT, ERR.* and RXBUF (R238). -/
structure State.KeepsError (s t : State) : Prop where
  txout : t.txout = s.txout
  errCode : t.errCode = s.errCode
  errText : t.errText = s.errText
  rxbuf : t.rxbuf = s.rxbuf

/-- In FAULTED only CLOSE and NPOP are accepted, and NPOP returns to FAULTED (R140, R149). -/
theorem Accepted.of_faulted (h : Accepted s i t) (hp : s.ph = .faulted) :
    (t.ph = .faulted ∨ (t.ph = .closed ∧ i = .close)) ∧ s.KeepsError t := by
  cases h with
  | close hi => exact ⟨.inr ⟨rfl, hi⟩, ⟨rfl, rfl, rfl, rfl⟩⟩
  | npopEmpty hi hn => exact ⟨.inl hp, ⟨rfl, rfl, rfl, rfl⟩⟩
  | npop n rest hi hn => exact ⟨.inl hp, ⟨rfl, rfl, rfl, rfl⟩⟩
  | queue op l js hi ho hs hr hl => cases hp.symm.trans hr
  | status op k ho hr hv hk => cases hp.symm.trans hr
  | wrline n hi hr hu => cases hp.symm.trans hr
  | _ => rename_i hr; cases hp.symm.trans hr

/-- A presented instruction in FAULTED: a rejection keeps the phase, an accepted operation does as above (R140). -/
theorem Taken.of_faulted (h : Taken s i t) (hp : s.ph = .faulted) :
    (t.ph = .faulted ∨ (t.ph = .closed ∧ i = .close)) ∧ s.KeepsError t := by
  cases h with
  | accepted t _ ha => exact ha.of_faulted hp
  | _ => exact ⟨.inl hp, ⟨rfl, rfl, rfl, rfl⟩⟩

/-- A CLOSE that is offered stands on the port: a job feeds lines only (R63). -/
theorem port_of_offered_close (h : s.offered = some .close) : ∃ p ps, s.port = p :: ps ∧ p.decode = .close := by
  unfold State.offered at h
  split at h
  · cases h
  · split at h
    · split at h <;> cases h
    · simpa [List.head?_eq_some_iff] using h

/-- In FAULTED the sequencer leaves only by a CLOSE from the port (R238). -/
theorem Moved.of_faulted (h : Moved s t) (hp : s.ph = .faulted) :
    (t.ph = .faulted ∨ (t.ph = .closed ∧ ∃ p ps, s.port = p :: ps ∧ p.decode = .close)) ∧ s.KeepsError t := by
  cases h with
  | waits => exact ⟨.inl hp, ⟨rfl, rfl, rfl, rfl⟩⟩
  | jobEnds hb => exact ⟨.inl hp, ⟨rfl, rfl, rfl, rfl⟩⟩
  | taken i t ps ho ht hs =>
    obtain ⟨hph, hkept⟩ := ht.of_faulted hp
    refine ⟨hph.imp_right fun ⟨hc, hi⟩ => ⟨hc, port_of_offered_close (hi ▸ ho)⟩, ?_⟩
    exact ⟨hkept.txout, hkept.errCode, hkept.errText, hkept.rxbuf⟩
  | top op l hb => cases hp.symm.trans hb
  | sleepTop op k hb => cases hp.symm.trans hb
  | line op c raw rest hb hc hl => cases hp.symm.trans hb
  | held op c hb hc hl hh => cases hp.symm.trans hb

/-- A step from FAULTED that is no reset: the sequencer's move, or an event that leaves the phase; the link being down, arriving
bytes are lost (R14, R55). -/
theorem Stepped.of_faulted (h : Stepped s t) (hinv : s.Inv) (hp : s.ph = .faulted) (hr : s.resetNext = false) :
    (t.ph = .faulted ∨ (t.ph = .closed ∧ ∃ p ps, s.port = p :: ps ∧ p.decode = .close)) ∧ s.KeepsError t := by
  cases h with
  | move t _ hu hm =>
    obtain ⟨hph, hkept⟩ := hm.of_faulted hp
    exact ⟨hph, ⟨hkept.txout, hkept.errCode, hkept.errText, hkept.rxbuf⟩⟩
  | rx d es hi =>
    have hlink : s.link = false := by rw [hinv.link_live, hp]; rfl
    rw [deviceSends_down (s := { s with inputs := es }) d hlink]
    exact ⟨.inl hp, ⟨rfl, rfl, rfl, rfl⟩⟩
  | timeout op c es hi hb hc hl => cases hp.symm.trans hb
  | poll op k es hi hb => cases hp.symm.trans hb
  | reset es hi => simp [resetNext_of_inputs hi] at hr
  | _ => exact ⟨.inl hp, ⟨rfl, rfl, rfl, rfl⟩⟩

/-- Settles O56, by the cases of a step. -/
theorem faultedIsLeftOnlyByClose : Obligations.FaultedIsLeftOnlyByClose := by
  intro s t hinv hp hst hr
  obtain ⟨hph, hkept⟩ := (step_cases hst).of_faulted hinv hp hr
  exact ⟨hph, hkept.txout, hkept.errCode, hkept.errText, hkept.rxbuf⟩

/-! ## Cancel points -/

/-- The latch set at a cancel point: it is consumed and the operation ends (R241). -/
theorem cancelPoint_set {c : Ctl} (goOn : State) (hp : s.ph = .busy op c) (hc : s.cancel = true) :
    cancelPoint s goOn = { s with cancel := false, completion := some .cancelled, ph := op.endPhase } := by
  rw [cancelPoint, if_pos hc, complete_busy (s := s.clearCancel) _ hp]
  rfl

/-- The latch clear at a cancel point: the operation goes on (R241). -/
theorem cancelPoint_clear (goOn : State) (hc : s.cancel = false) : cancelPoint s goOn = goOn := by
  rw [cancelPoint, if_neg (by simp [hc])]

/-- The top of a loop is a cancel point (R241). -/
theorem step_top (hp : s.ph = .busy op (.top l)) (hi : s.inputs = []) :
    step s = .next (cancelPoint s (s.goto op (.read l))) := by
  rw [step_moves hi, sequencerMove, hp]
  rfl

/-- The top of the sleep is a cancel point (R182, R241). -/
theorem step_sleepTop {k : AcqUse} (hp : s.ph = .busy op (.sleepTop k)) (hi : s.inputs = []) :
    step s = .next (cancelPoint s (s.goto op (.sleep k))) := by
  rw [step_moves hi, sequencerMove, hp]
  rfl

/-- At the top of a loop a set latch ends the operation (R241). -/
theorem step_top_cancelled (hp : s.ph = .busy op (.top l)) (hi : s.inputs = []) (hc : s.cancel = true) :
    step s = .next { s with cancel := false, completion := some .cancelled, ph := op.endPhase } := by
  rw [step_top hp hi, cancelPoint_set _ hp hc]

/-- Settles O36: both positions are cancel points, and the latch decides. -/
theorem cancelPointEndsTheOperation : Obligations.CancelPointEndsTheOperation := by
  intro s op c hp hc h1 h2 hi
  rcases hc with ⟨l, rfl⟩ | ⟨k, rfl⟩
  · refine ⟨fun hset => ?_, fun hclear => ?_⟩
    · rw [step_top_cancelled hp hi hset, endPhase_ready h1 h2]
    · rw [step_top hp hi, cancelPoint_clear _ hclear]
      exact ⟨fun l' e => by cases e; rfl, nofun⟩
  · rw [step_sleepTop hp hi]
    refine ⟨fun hset => ?_, fun hclear => ?_⟩
    · rw [cancelPoint_set _ hp hset, endPhase_ready h1 h2]
    · rw [cancelPoint_clear _ hclear]
      exact ⟨nofun, fun k' e => by cases e; rfl⟩

/-! ## Cancellation of a waiting read -/

/-- A run of two steps, from the steps it is made of. -/
theorem run_two (h1 : step s = .next u) (h2 : step u = .next t) : Sys2Proof.core.run 2 s = .next t := by
  have hs : Sys2Proof.core.step s = .next u := h1
  have hu : Sys2Proof.core.step u = .next t := h2
  simp only [Host.Core.run, hs, hu]

/-- Settles O38: the time-out brings the loop round to its cancel point, which finds the latch set. -/
theorem cancelIsHonouredWithinOneTimeout : Obligations.CancelIsHonouredWithinOneTimeout := by
  intro s op l hinv hp hl hset hn hi
  have timed_out : step s = .next { s with inputs := [], ph := .busy op (.top l) } :=
    (timeoutLosesNothing s [] hi).1 op l hp hl hn
  have cancelled := step_top_cancelled (s := { s with inputs := [], ph := .busy op (.top l) }) rfl rfl hset
  have ready : op.endPhase = .ready := Loop.fits_endPhase (hinv.position op _ hp)
  exact ⟨_, run_two timed_out cancelled, by rw [ready]⟩

end Sys2Proof.Machine
end
